-- ==== Sys2Proof/Word.lean ====
section
/-! DEFINITION. The plain words the part handles: bytes, the millisecond clock, cycle numbers, and the
fixed sets of names that commands carry (12_record_and_frame_formats.md R181). -/

namespace Sys2Proof

/-- One byte of the window or of a train. -/
abbrev Byte := BitVec 8

/-- The 32-bit millisecond controller clock, which wraps (00_scope.md 0.6). -/
abbrev Clock := BitVec 32

/-- The 16-bit cycle number, which wraps from 65535 to 0 (R1). -/
abbrev CycleNo := BitVec 16

/-- The two ends of the niche ring, and the two sides a train may carry (R4, R45). -/
inductive Port where
  | a | b
  deriving DecidableEq, Repr

/-- The four kinds of sensor channel (00_scope.md 0.6). -/
inductive ChKind where
  | co | no2 | vis | airv
  deriving DecidableEq, Repr

/-- The two directions along the bore (00_scope.md 0.6, R181). -/
inductive Dir where
  | plus | minus
  deriving DecidableEq, Repr

end Sys2Proof
end

