-- ==== Sys2Proof/Syntax.lean ====
section
/-! DEFINITION. The commands: one constructor for each row of spec/opcode_table.json, in the table's order.
A taking of an order (R167) carries no operand: its parameters stand in the slot at the head of the intake
queue. -/

namespace Sys2Proof

/-- One step of the part (95_what_each_step_holds.md). -/
inductive Instr where
  /-- POWER_ON_RESET: the reset line (R174). -/
  | powerOnReset
  /-- SOFT_RESET: a write of `v` to CTRL with bit 7 set (R164, R174). -/
  | softReset (v : BitVec 32)
  /-- RESET_DONE: the formatting ends (R174). -/
  | resetDone
  /-- CTRL_MASK_WRITE: a write of `v` to CTRL with bit 7 clear (R164). -/
  | ctrlMaskWrite (v : BitVec 32)
  /-- ATTN_WRITE: a write of `v` to ATTN, after the window stores the host made before it (R164). -/
  | attnWrite (v : BitVec 32) (stores : List Host.Cell)
  /-- POST_WRITE: a write of `v` to POST, after the window stores the host made before it (R166). -/
  | postWrite (v : BitVec 32) (stores : List Host.Cell)
  /-- ID_WRITE: a write of `v` to ID (R164). -/
  | idWrite (v : BitVec 32)
  /-- SLOT_WITHDRAWN: the head of the intake queue is found not POSTED (R167). -/
  | slotWithdrawn
  /-- UNKNOWN_ORDER_CODE: the head of the intake queue holds an unknown order code (R167). -/
  | unknownOrderCode
  /-- ENROL taken (R25). -/
  | enrol
  /-- SET RING taken (R3). -/
  | setRing
  /-- SENSE STATION taken (R42). -/
  | senseStation
  /-- CLEAR COUNTS taken (R43). -/
  | clearCounts
  /-- ZONE MAP taken (R83). -/
  | zoneMap
  /-- SET CHANNEL taken (R74). -/
  | setChannel
  /-- CAPTURE ZERO taken (R76). -/
  | captureZero
  /-- SET ZONE taken (R94). -/
  | setZone
  /-- SCAN ZONES taken (R96). -/
  | scanZones
  /-- FAN RUN taken (R114). -/
  | fanRun
  /-- FAN STOP taken (R115). -/
  | fanStop
  /-- FAN HOME taken (R117). -/
  | fanHome
  /-- FAN LOCKOUT taken (R118). -/
  | fanLockout
  /-- FAN RELEASE taken (R115). -/
  | fanRelease
  /-- FAN UNLOCK taken (R118). -/
  | fanUnlock
  /-- FAN PROFILE taken (R113). -/
  | fanProfile
  /-- FAN GROUP taken (R121). -/
  | fanGroup
  /-- FAN UNGROUP taken (R121). -/
  | fanUngroup
  /-- SET FEEDER taken (R131). -/
  | setFeeder
  /-- SET DOOR taken (R143). -/
  | setDoor
  /-- DOOR SIGNAL taken (R147). -/
  | doorSignal
  /-- VENT PLAN taken (R151). -/
  | ventPlan
  /-- SET STAGES taken (R152). -/
  | setStages
  /-- PARAM READ taken (R176). -/
  | paramRead
  /-- PARAM WRITE taken (R176). -/
  | paramWrite
  /-- ABORT taken (R171). -/
  | abort
  /-- CYCLE_TIMER_EXPIRY: the cycle is closed and the next is opened (R2). -/
  | cycleTimerExpiry
  /-- TRAIN_ARRIVAL: the bytes of a train arrive at a receive port (R6). -/
  | trainArrival (port : Port) (bytes : List Byte)
  /-- SIGNAL_DETECT_CHANGE: the signal-detect input of a receive port takes a level (R48). -/
  | signalDetectChange (port : Port) (level : Bool)
  /-- REPLY_LIMIT_EXPIRY: the reply limit of the frame with this tag runs out (R15). -/
  | replyLimitExpiry (tag : Nat)
  /-- TAG_REST_END: the rest of this tag ends (R1). -/
  | tagRestEnd (tag : Nat)
  /-- HELD_FRAME_EXPIRY: a held frame of this station is ended (R10). -/
  | heldFrameExpiry (station : Nat)
  /-- PAGE_TIMEOUT: the wanted page of this station did not arrive (R28). -/
  | pageTimeout (station : Nat)
  /-- PENDING_TIMEOUT: this station stayed PENDING too long (R37). -/
  | pendingTimeout (station : Nat)
  /-- HEAL_TIME_ELAPSED: the heal condition has held for the heal time (R56). -/
  | healTimeElapsed
  /-- RECLOSE_ATTEMPT_EXPIRY: cycle r + 2 closes without success (R58). -/
  | recloseAttemptExpiry
  /-- STALE_EXPIRY of a channel (R70). -/
  | staleExpiry (channel : Nat)
  /-- ZONE_HOLD_EXPIRY of a kind of a zone (R88). -/
  | zoneHoldExpiry (zone : Nat) (kind : ChKind)
  /-- STEP_INTERVAL_EXPIRY of a fan (R106). -/
  | stepIntervalExpiry (fan : Nat)
  /-- ENERGIZE_LIMIT_EXPIRY of a fan (R105). -/
  | energizeLimitExpiry (fan : Nat)
  /-- RUNDOWN_LIMIT_EXPIRY of a fan (R107, R117, R118). -/
  | rundownLimitExpiry (fan : Nat)
  /-- REVERSE_DWELL_EXPIRY of a fan (R108). -/
  | reverseDwellExpiry (fan : Nat)
  /-- DOOR_HOLD_EXPIRY of a door (R136). -/
  | doorHoldExpiry (door : Nat)
  /-- RUN_ON_EXPIRY of a door (R140). -/
  | runOnExpiry (door : Nat)
  /-- PLAN_TIMER_EXPIRY (R156). -/
  | planTimerExpiry
  /-- CONTROL_TIMER_EXPIRY (R160). -/
  | controlTimerExpiry
  /-- RUN_SECONDS_TICK (R110). -/
  | runSecondsTick
  /-- CONTROLLER_CLOCK_TICK (R165). -/
  | controllerClockTick
  deriving DecidableEq, Repr

end Sys2Proof
end

