-- ==== Sys2Proof/Config.lean ====
section
/-! DEFINITION. What one part fixes and the spec leaves open: free values, constants without a body, so that a
claim holds whatever they are. -/

namespace Sys2Proof

/-- Bits 0 to 7 of the ID register: the revision of the part (R164, R181), which the spec does not give.
Free value (log 9). -/
opaque Config.revision : BitVec 8

/-- Whether the formatting after a reset still had to reach a place when the host stored a byte there (R174:
"the formatting writes over those it reaches afterwards"). The argument numbers the stores made while
formatting. Free value (log 7). -/
opaque Config.formatReaches : Nat → Bool

/-- The fields of a train whose codes a station sends (R186). -/
inductive CodeField where
  | intake | beatMark | slotState | stepAck | resetAck | paramResult | fanKind | direction | chKind | doorKind
  | doorState
  deriving DecidableEq, Repr

/-- What the part takes a code for that the list of its field does not give (R181, R186); the spec is silent.
Free value (log 12). -/
opaque Config.unlistedCode : CodeField → Nat → Nat

/-- The layout version the part writes into the control block (R182: "layout version, 1 in this part"). -/
def Config.layoutVersion : Nat := 1

end Sys2Proof
end

