-- ==== Sys2Proof/Machine/State.lean ====
section
/-! DEFINITION. The state of the part: every record the spec names, block by block, as plain data, and the
state right after a power-on reset. Fields marked MODEL are the model's own. -/

namespace Sys2Proof.Machine

/-! ## Reasons to stop -/

/-- Why a step stops with a fault. -/
inductive Fault where
  /-- Raised by ATTN_WRITE and POST_WRITE when the host's stores name an address that the 32 KiB port does not
  have (0x8000 and above, 10.2). Safe: no such access exists. -/
  | outsideWindow
  deriving DecidableEq, Repr

/-- Why a command has no meaning. -/
inductive Refusal where
  /-- Raised by an arm of the dispatch that gives its row no meaning yet. Safe. No arm raises it. -/
  | notModelled (mnemonic : String)
  deriving DecidableEq, Repr

/-! ## Common names and records -/

/-- A fan step with its direction (00_scope.md 0.6). -/
structure Speed where
  step : Nat
  dir  : Dir
  deriving DecidableEq, Repr

/-- A timer measured against the controller clock: when it started and how many milliseconds it runs. -/
structure Timer where
  start : Clock
  dur   : Nat
  deriving DecidableEq, Repr

/-- AUTO or MANUAL (0.8). -/
inductive Source where
  | auto | manual
  deriving DecidableEq, Repr

/-- The outcomes of orders (R183). -/
inductive OrderOutcome where
  | ok | okClamped | badOrder | badParameter | badBuffer | badZone | noSuchUnit | busy | ringNotRunning
  | ringFolded | resurveyed | superseded | aborted | notActive | unreachable | noDelivery | noAnswer
  | driveFault | startTimeout | rundownTimeout | notReady | lockedOut | inOtherGroup | beyondEnd | readOnly
  deriving DecidableEq, Repr

/-- Which reset is being formatted: the subject of the RESET DONE record (R174). -/
inductive ResetKind where
  | powerOn | soft
  deriving DecidableEq, Repr

/-! ## Orders (chapter 10) -/

/-- One member part of a fan order with its outcome once it has ended (R120). -/
structure FanPart where
  fan     : Nat
  outcome : Option OrderOutcome
  deriving DecidableEq, Repr

/-- What a taken order still does (R167): a quick order ends within its taking, a long one is with its block. -/
inductive Work where
  | quick
  | enrol
  | capture (channel : Nat)
  /-- A fan order with its member parts; `clamped` once a part has been marked clamped (R114). -/
  | fans (parts : List FanPart) (clamped : Bool)
  | signal (door : Nat)
  | param (station : Nat)
  deriving DecidableEq, Repr

/-- An order of the active set: its slot, the copy of its 64 bytes, and its work (R167, R170). -/
structure ActiveOrder where
  slot : Nat
  copy : List Byte
  work : Work
  deriving DecidableEq, Repr

/-! ## The ring (chapters 1 and 3) -/

/-- The ring state (R1). -/
inductive RingState where
  | idle | enrolling | closed | folded | reclosing
  deriving DecidableEq, Repr

/-- A station's readiness to take frames (R10). -/
inductive Intake where
  | open | plainOnly | closed
  deriving DecidableEq, Repr

/-- The kinds of command frame (R7). -/
inductive FrameKind where
  | clearAddress | takeAddress | pageRequest | fanStep | fanReset | doorBeacon | param | reclose
  deriving DecidableEq, Repr

/-- The beacon modes (8.7). -/
inductive BeaconMode where
  | dark | guide | alarm
  deriving DecidableEq, Repr

/-- Which block offered a queued frame, and what for (R7, R8). `nobody` marks a FAN RESET whose part has
ended: its ending is discarded (R119). `start` marks a start frame (R101). -/
inductive Origin where
  | page
  | fanStep (fan : Nat) (start : Bool)
  | fanReset (fan : Nat)
  | beacon (door : Nat) (mode : BeaconMode)
  | param
  | nobody
  deriving DecidableEq, Repr

/-- A queued frame (R7, R8); `held` counts the successive openings at which it was held (R10). -/
structure QFrame where
  kind    : FrameKind
  payload : List Byte
  origin  : Origin
  held    : Nat
  deriving DecidableEq, Repr

/-- The stage of a sent frame (R12): in the train of this cycle on a side, waiting to be retried, or awaiting
its reply since its take cycle. -/
inductive Delivery where
  | inTrain (side : Port)
  | retry
  | awaiting (take : CycleNo)
  deriving DecidableEq, Repr

/-- An entry of the outstanding-frame table (R11, R12). -/
structure OutFrame where
  station  : Nat
  tag      : Nat
  frame    : QFrame
  mask     : BitVec 32
  tries    : Nat
  lastSent : CycleNo
  delivery : Delivery
  deriving DecidableEq, Repr

/-- The train-wide frames (R7). -/
inductive TrainWide where
  | clearAddress
  | takeAddress (value : Nat) (probe : Bool)
  | reclose
  deriving DecidableEq, Repr

/-- What stands in one command-frame place of a sent train: a train-wide frame, or the outstanding frame of a
tag. -/
inductive SentFrame where
  | wide (w : TrainWide)
  | queued (tag : Nat)
  deriving DecidableEq, Repr

/-- A train sent in the present cycle: its frames in order, the assignment list, and whether it has been
accepted (R4, R6). -/
structure SentTrain where
  frames   : List SentFrame
  assign   : List Nat
  accepted : Bool
  deriving DecidableEq, Repr

/-- The ring entry of a station address (R1). -/
structure RingEntry where
  queue   : List QFrame
  intake  : Intake
  replies : Nat
  deriving DecidableEq, Repr

/-- Under which rules the cycle in progress runs: one train (R2, R49), two trains (R51), two trains of which one
has closed the ring in this cycle (R58), or the one train of a reclose cycle r + 1 or r + 2 (R57). -/
inductive CycleKind where
  | one | two | closedTwo | recloseOne
  deriving DecidableEq, Repr

/-- MODEL (log 6): how far the close of the ending cycle and the opening of the next have come. -/
inductive Phase where
  | running | closing | opening
  deriving DecidableEq, Repr

/-- The ring record (R1) with the cycle in progress. MODEL (log 13): `opened` counts the cycles opened since the ring last
left IDLE, up to 65536, so that a train in flight when it became IDLE is known when it arrives. -/
structure Ring where
  state        : RingState
  interval     : Nat
  healTime     : Nat
  cycle        : CycleNo
  framePtr     : Nat
  slotPtr      : Nat
  pool         : List Nat
  resting      : List (Nat × CycleNo)
  outstanding  : List OutFrame
  lost         : Nat
  late         : Nat
  unattributed : Nat
  entries      : List RingEntry
  timer        : Option Timer
  trainWide    : List TrainWide
  trainA       : Option SentTrain
  trainB       : Option SentTrain
  txA          : List Byte
  txB          : List Byte
  kind         : CycleKind
  phase        : Phase
  heard        : List Nat
  opened       : Nat
  deriving DecidableEq, Repr

/-- The fold causes (R47). -/
inductive FoldCause where
  | none | turnedTrain | signalLoss | trainsLost
  deriving DecidableEq, Repr

/-- The fold record (R47). -/
structure Fold where
  cause       : FoldCause
  cycle       : CycleNo
  runA        : Nat
  runB        : Nat
  deadA       : Bool
  deadB       : Bool
  framePtrB   : Nat
  slotPtrB    : Nat
  healStart   : Option Clock
  healHeld    : Bool
  reclosing   : Option CycleNo
  recloseDue  : Bool
  count       : Nat
  failures    : Nat
  deriving DecidableEq, Repr

/-! ## Stations (chapter 2) -/

/-- The link state of a station that has a record (R23). -/
inductive Link where
  | paging | pending | up | silent | down
  deriving DecidableEq, Repr

/-- Why a station went DOWN (R23). -/
inductive DownCause where
  | none | silence | pageTimeout | pageFault | mismatch
  deriving DecidableEq, Repr

/-- The fan kinds (R29). -/
inductive FanKind where
  | jet | passage
  deriving DecidableEq, Repr

/-- The door kinds (8.1). -/
inductive DoorKind where
  | hinged | sliding
  deriving DecidableEq, Repr

/-- What a door unit reports (R135). -/
inductive Reported where
  | closed | unlatched | open | fault
  deriving DecidableEq, Repr

/-- The base page (R29). -/
structure BasePage where
  kind      : Nat
  fans      : Nat
  channels  : Nat
  doors     : Nat
  lastParam : Nat
  chainage  : Nat
  deriving DecidableEq, Repr

/-- A fan page (R29). -/
structure FanPage where
  kind       : FanKind
  reversible : Bool
  top        : Nat
  feeder     : Nat
  actual     : Speed
  runMinutes : Nat
  deriving DecidableEq, Repr

/-- A channel page (R29). -/
structure ChannelPage where
  kind : ChKind
  zero : Nat
  gain : Nat
  deriving DecidableEq, Repr

/-- A door page (R29). -/
structure DoorPage where
  kind    : DoorKind
  state   : Reported
  passage : Option Nat
  deriving DecidableEq, Repr

/-- The page exchange of a station (R23, R28): `offer` is set when the request must be offered (again) at the
next opening. -/
structure Exchange where
  wanted   : Nat
  first    : CycleNo
  base     : Option BasePage
  fans     : List FanPage
  channels : List ChannelPage
  doors    : List DoorPage
  offer    : Bool
  deriving DecidableEq, Repr

/-- The numbered description (R23, R32): device numbers run on from the first of each sort, in local order. -/
structure Description where
  firstFan     : Nat
  fans         : List FanKind
  firstChannel : Nat
  channels     : List ChKind
  firstDoor    : Nat
  doors        : List DoorKind
  deriving DecidableEq, Repr

/-- A station record (R23). `reEnrol` is set while a re-enrolment runs (R38, R40). -/
structure Station where
  link         : Link
  cause        : DownCause
  missRun      : Nat
  goodRun      : Nat
  pendingSince : Option CycleNo
  errors       : Nat
  linkDowns    : Nat
  wasDown      : Bool
  partFlag     : Bool
  mismatch     : Bool
  base         : Option BasePage
  description  : Option Description
  pages        : Exchange
  heard        : Option (Port × CycleNo)
  downstream   : Bool
  upstream     : Bool
  turning      : Bool
  reEnrol      : Bool
  deriving DecidableEq, Repr

/-- Where the excess probe stands (R27): not needed, asked for or out with so many failures, or settled. -/
inductive Probe where
  | none
  | out (failures : Nat)
  | settled
  deriving DecidableEq, Repr

/-- The ENROL in progress (R25 to R35): its slot, the failed addressing attempts, whether the stations have
taken addresses, the probe, and the flags of the result. -/
structure EnrolContext where
  slot         : Nat
  failures     : Nat
  addressed    : Bool
  probe        : Probe
  excess       : Bool
  overCapacity : Bool
  deriving DecidableEq, Repr

/-! ## Channels (chapter 4) -/

/-- The quality of a channel (R60). -/
inductive Quality where
  | waiting | good | suspect | stale | lost
  deriving DecidableEq, Repr

/-- A CAPTURE ZERO in progress (R76). -/
structure Capture where
  slot    : Nat
  count   : Nat
  sum     : Nat
  lowest  : Nat
  highest : Nat
  deriving DecidableEq, Repr

/-- A numbered channel record (R60). `armed` says that the stale expiry of the last feed time is still to come
(R70). -/
structure Channel where
  station  : Nat
  index    : Nat
  kind     : ChKind
  zero     : Nat
  gain     : Nat
  shift    : Nat
  under    : Nat
  skip     : Bool
  stale    : Nat
  acc      : Int
  value    : Int
  quality  : Quality
  seedDue  : Bool
  clamped  : Bool
  lastFeed : Clock
  lastRaw  : Nat
  zone     : Option Nat
  capture  : Option Capture
  armed    : Bool
  deriving DecidableEq, Repr

/-! ## Zones (chapter 5) -/

/-- The value state of a kind of a zone (R81). -/
inductive ValueState where
  | none | present | held | absent
  deriving DecidableEq, Repr

/-- One kind of a zone: its members, value and level (R80). -/
structure ZoneKind where
  members   : List Nat
  vstate    : ValueState
  value     : Int
  heldSince : Option Clock
  level     : Nat
  deriving DecidableEq, Repr

/-- Thresholds and hysteresis of a pollutant kind (R80). -/
structure Thresholds where
  t1 : Nat
  t2 : Nat
  t3 : Nat
  t4 : Nat
  h  : Nat
  deriving DecidableEq, Repr

/-- A zone record (R80). -/
structure Zone where
  co       : ZoneKind
  no2      : ZoneKind
  vis      : ZoneKind
  airv     : ZoneKind
  coT      : Thresholds
  no2T     : Thresholds
  visT     : Thresholds
  smoke    : Nat
  hold     : Nat
  fallback : Nat
  level    : Nat
  latch    : Bool
  deriving DecidableEq, Repr

/-! ## Fans and feeders (chapters 6 and 7) -/

/-- The states of a numbered fan (R100). -/
inductive FanState where
  | stopped | queued | energizing | ramping | running | runningDown | reverseDwell | fault | lockedOut
  | unreachable
  deriving DecidableEq, Repr

/-- The fault causes (R98). -/
inductive FaultCause where
  | none | driveFault | startTimeout | rundownTimeout | notReady
  deriving DecidableEq, Repr

/-- The stage of a fan's FAN STEP (R101) or of a door's DOOR BEACON (R146). -/
inductive FrameStage where
  | none | queued | outstanding
  deriving DecidableEq, Repr

/-- A fan profile (R113): step interval in 0.5 s units, the limits and the dwell in seconds. -/
structure Profile where
  interval : Nat
  energize : Nat
  rundown  : Nat
  dwell    : Nat
  deriving DecidableEq, Repr

/-- The phases of a FAN HOME part (R117): waiting for rest, offering FAN RESET, waiting for its ending,
and waiting for the heartbeat after RESET ACK DONE. -/
inductive HomePhase where
  | waiting | offering | resetting | judging
  deriving DecidableEq, Repr

/-- What an active part does (R114 to R118). -/
inductive PartWork where
  | run (want : Speed)
  | stop
  | home (phase : HomePhase)
  | lockout
  deriving DecidableEq, Repr

/-- The order part acting on a fan (R98, R112). -/
structure ActivePart where
  slot : Nat
  work : PartWork
  deriving DecidableEq, Repr

/-- A numbered fan record (R98). -/
structure Fan where
  station      : Nat
  index        : Nat
  kind         : FanKind
  reversible   : Bool
  top          : Nat
  feeder       : Nat
  zone         : Option Nat
  group        : Option Nat
  profile      : Profile
  source       : Source
  requested    : Speed
  doorReq      : Bool
  cap          : Nat
  commanded    : Speed
  lastSent     : Option Speed
  stepFrame    : FrameStage
  actual       : Speed
  standstill   : Bool
  faultCode    : Nat
  heard        : Bool
  state        : FanState
  reversal     : Bool
  timer        : Option Timer
  slotHeld     : Bool
  notReady     : Nat
  cause        : FaultCause
  runMinutes   : Nat
  runSeconds   : Nat
  plannerStart : Option Clock
  part         : Option ActivePart
  deriving DecidableEq, Repr

/-- A feeder record (R123). -/
structure Feeder where
  allowance  : Nat
  pendingLow : Option Nat
  energizing : List Nat
  class1     : List Nat
  class0     : List Nat
  deriving DecidableEq, Repr

/-! ## Doors (chapter 8) -/

/-- The door state (R135). -/
inductive DoorState where
  | none | closed | unlatched | open | heldOpen | fault | unreachable
  deriving DecidableEq, Repr

/-- A numbered door record (R134). -/
structure Door where
  station     : Nat
  index       : Nat
  kind        : DoorKind
  zone        : Option Nat
  reported    : Reported
  state       : DoorState
  holdLimit   : Nat
  holdTimer   : Option Timer
  passage     : Option Nat
  passageStep : Nat
  runOn       : Nat
  runOnTimer  : Option Timer
  smoke       : Bool
  caps        : List (Nat × Nat)
  source      : Source
  manualMode  : BeaconMode
  confirmed   : Option BeaconMode
  beacon      : FrameStage
  signal      : Option Nat
  deriving DecidableEq, Repr

/-! ## The planner (chapter 9) -/

/-- The ventilation regimes (9.1). -/
inductive Regime where
  | off | normal | fire
  deriving DecidableEq, Repr

/-- Where the last measurement came from (R160). -/
inductive Measured where
  | none | upstream | mean
  deriving DecidableEq, Repr

/-- The regime record (R149) with the numbers found by the last selection and control step (R154, R157, R161); the image
shows the candidates as they stand instead (R163). -/
structure Planner where
  regime       : Regime
  stages       : List Nat
  planInterval : Nat
  minRun       : Nat
  normalDir    : Dir
  normalStep   : Nat
  fireZone     : Nat
  smokeDir     : Dir
  target       : Nat
  band         : Nat
  startCount   : Nat
  minCount     : Nat
  period       : Nat
  fireCount    : Nat
  excluded     : List Nat
  picked       : List Nat
  tunnel       : Nat
  smokeCount   : Nat
  configured   : List Nat
  smokeHold    : Bool
  planTimer    : Option Timer
  controlTimer : Option Timer
  measured     : Int
  source       : Measured
  w            : Int
  candidates   : Nat
  kept         : Nat
  settling     : Bool
  deriving DecidableEq, Repr

/-! ## Parameter transfers (chapter 11) -/

/-- The step modes (R175). -/
inductive StepMode where
  | increment | fixed | paired
  deriving DecidableEq, Repr

/-- A PARAM frame of a transfer: the indices it addresses in order, its payload, and whether the ring
controller has it (false: refused FULL and waiting to be offered again). -/
structure ParamFrame where
  indices : List Nat
  payload : List Byte
  sent    : Bool
  deriving DecidableEq, Repr

/-- An active transfer context (R176). -/
structure Transfer where
  slot     : Nat
  write    : Bool
  mode     : StepMode
  last     : Nat
  offset   : Nat
  count    : Nat
  position : Nat
  current  : Nat
  done     : Nat
  frame    : Option ParamFrame
  aborted  : Bool
  deriving DecidableEq, Repr

/-! ## What the status image is made of (R172) -/

/-- Who keeps a table of the status image (R22, R44, R79, R97, R122, R133, R148, R163): the ring controller keeps the ring
table and the error counts and queue depths of the station table, the link monitor the rest of the station table. -/
inductive Writer where
  | ring | link | channels | zones | fans | feeders | doors | planner
  deriving DecidableEq, Repr

/-- Which entries of a table an update rewrites whether or not they have changed: none, those with running timers,
or the whole table. -/
inductive Force where
  | none | running | whole
  deriving DecidableEq, Repr

/-- Everything the tables of the status image are made of, as it stood at one moment. -/
structure Shown where
  ring     : Ring
  fold     : Fold
  sigA     : Bool
  sigB     : Bool
  stations : List Station
  channels : List (Option Channel)
  zones    : List Zone
  fans     : List (Option Fan)
  feeders  : List Feeder
  doors    : List (Option Door)
  plan     : Planner
  deriving DecidableEq, Repr

/-- An event that a writer has handled to its end, what its update rewrites besides the changed entries, and what the
tables were made of then (R172). -/
structure Handled where
  writer : Writer
  force  : Force
  shown  : Shown
  deriving DecidableEq, Repr

/-! ## The whole part -/

/-- The state of the part. -/
structure State where
  /-- MODEL: the commands that wait, first in first out. -/
  pending        : List Instr
  clock          : Clock
  mem            : List Host.Cell
  attn           : BitVec 6
  mask           : BitVec 6
  formatting     : Option ResetKind
  /-- MODEL (log 7): the addresses the host stored to while formatting, with the number of each store. -/
  formatStores   : List (Nat × Nat)
  /-- MODEL (log 7): how many stores were made while formatting; the argument of the free value. -/
  freeIdx        : Nat
  imageCounts    : List (BitVec 32)
  intake         : List Nat
  active         : List ActiveOrder
  jWrite         : Nat
  jGap           : Nat
  jSeq           : BitVec 16
  sigA           : Bool
  sigB           : Bool
  ring           : Ring
  fold           : Fold
  enrol          : Option EnrolContext
  stations       : List Station
  channels       : List (Option Channel)
  zones          : List Zone
  tunnelLevel    : Nat
  fans           : List (Option Fan)
  feeders        : List Feeder
  doors          : List (Option Door)
  passageWritten : List (Option Speed)
  plan           : Planner
  params         : List (Option Transfer)
  /-- MODEL (log 1): whole seconds of the clock that RUN_SECONDS_TICK has not yet counted. -/
  secondsOwed    : Nat
  /-- MODEL (log 8): the events handled so far in the step under way, first to last; empty between steps. -/
  events         : List Handled
  deriving DecidableEq, Repr

/-! ## After reset -/

/-- A ring entry after reset (R1). -/
def RingEntry.reset : RingEntry := { queue := [], intake := .open, replies := 0 }

/-- The ring record after reset (R1). -/
def Ring.reset : Ring :=
  { state := .idle, interval := 10, healTime := 2000, cycle := 0, framePtr := 1, slotPtr := 1,
    pool := List.range 64, resting := [], outstanding := [], lost := 0, late := 0, unattributed := 0,
    entries := List.replicate 24 RingEntry.reset, timer := none, trainWide := [], trainA := none,
    trainB := none, txA := [], txB := [], kind := .one, phase := .running, heard := [], opened := 0 }

/-- The fold record after reset (R47). -/
def Fold.reset : Fold :=
  { cause := .none, cycle := 0, runA := 0, runB := 0, deadA := false, deadB := false, framePtrB := 1,
    slotPtrB := 1, healStart := none, healHeld := false, reclosing := none, recloseDue := false, count := 0,
    failures := 0 }

/-- A kind of a zone without members (R80). -/
def ZoneKind.reset : ZoneKind := { members := [], vstate := .none, value := 0, heldSince := none, level := 0 }

/-- A zone record after reset (R80). -/
def Zone.reset : Zone :=
  { co := .reset, no2 := .reset, vis := .reset, airv := .reset,
    coT := { t1 := 500, t2 := 700, t3 := 1000, t4 := 1500, h := 50 },
    no2T := { t1 := 200, t2 := 300, t3 := 500, t4 := 800, h := 20 },
    visT := { t1 := 50, t2 := 70, t3 := 90, t4 := 120, h := 5 },
    smoke := 120, hold := 30, fallback := 2, level := 0, latch := false }

/-- A feeder record after reset (R123). -/
def Feeder.reset : Feeder :=
  { allowance := 1, pendingLow := none, energizing := [], class1 := [], class0 := [] }

/-- The regime record after reset (R149). -/
def Planner.reset : Planner :=
  { regime := .off, stages := [0, 2, 4, 8, 12], planInterval := 30, minRun := 300, normalDir := .plus,
    normalStep := 8, fireZone := 0, smokeDir := .plus, target := 300, band := 30, startCount := 6,
    minCount := 2, period := 10, fireCount := 0, excluded := [], picked := [], tunnel := 0, smokeCount := 0,
    configured := [], smokeHold := false, planTimer := none, controlTimer := none, measured := 0,
    source := .none, w := 0, candidates := 0, kept := 0, settling := false }

/-- The part right after a power-on reset: every block as its rules give it, the formatting of the window
under way (R174). -/
def State.reset : State :=
  { pending := [], clock := 0, mem := [], attn := 0, mask := 0, formatting := some .powerOn,
    formatStores := [], freeIdx := 0, imageCounts := List.replicate 8 0, intake := [], active := [],
    jWrite := 0, jGap := 0, jSeq := 0, sigA := false, sigB := false, ring := .reset, fold := .reset,
    enrol := none, stations := [], channels := List.replicate 96 none, zones := List.replicate 16 .reset,
    tunnelLevel := 0, fans := List.replicate 48 none, feeders := List.replicate 4 .reset,
    doors := List.replicate 32 none, passageWritten := List.replicate 48 none, plan := .reset,
    params := List.replicate 24 none, secondsOwed := 0, events := [] }

end Sys2Proof.Machine
end

