-- ==== Sys2Proof/Machine/Codes.lean ====
section
/-! DEFINITION. The code tables of 12_record_and_frame_formats.md R181, R183, R184 and R186, in both directions
where the part reads the code. -/

namespace Sys2Proof

/-! ## R181: enumerations -/

def Dir.code : Dir → Nat
  | .plus => 0 | .minus => 1

def Dir.ofCode? : Nat → Option Dir
  | 0 => some .plus | 1 => some .minus | _ => none

def ChKind.code : ChKind → Nat
  | .co => 0 | .no2 => 1 | .vis => 2 | .airv => 3

def ChKind.ofCode? : Nat → Option ChKind
  | 0 => some .co | 1 => some .no2 | 2 => some .vis | 3 => some .airv | _ => none

end Sys2Proof

namespace Sys2Proof.Machine

/-- A code that a station sends in a field whose list has `count` codes from 0 on: itself, or a free one of the list
(log 12). -/
def listed (field : CodeField) (count n : Nat) : Nat := if n < count then n else Config.unlistedCode field n % count

def Quality.code : Quality → Nat
  | .waiting => 0 | .good => 1 | .suspect => 2 | .stale => 3 | .lost => 4

def ValueState.code : ValueState → Nat
  | .none => 0 | .present => 1 | .held => 2 | .absent => 3

/-- UNKNOWN 0 belongs to an address without a record (R23). -/
def Link.code : Link → Nat
  | .paging => 1 | .pending => 2 | .up => 3 | .silent => 4 | .down => 5

def DownCause.code : DownCause → Nat
  | .none => 0 | .silence => 1 | .pageTimeout => 2 | .pageFault => 3 | .mismatch => 4

def RingState.code : RingState → Nat
  | .idle => 0 | .enrolling => 1 | .closed => 2 | .folded => 3 | .reclosing => 4

def FoldCause.code : FoldCause → Nat
  | .none => 0 | .turnedTrain => 1 | .signalLoss => 2 | .trainsLost => 3

def Intake.code : Intake → Nat
  | .open => 0 | .plainOnly => 1 | .closed => 2

/-- The intake state of a heartbeat (R10, R186). -/
def Intake.ofCode (n : Nat) : Intake :=
  match listed .intake 3 n with
  | 0 => .open
  | 1 => .plainOnly
  | _ => .closed

def FanKind.code : FanKind → Nat
  | .jet => 0 | .passage => 1

def FanKind.ofCode? : Nat → Option FanKind
  | 0 => some .jet | 1 => some .passage | _ => none

def FanState.code : FanState → Nat
  | .stopped => 1 | .queued => 2 | .energizing => 3 | .ramping => 4 | .running => 5 | .runningDown => 6
  | .reverseDwell => 7 | .fault => 8 | .lockedOut => 9 | .unreachable => 10

def FaultCause.code : FaultCause → Nat
  | .none => 0 | .driveFault => 1 | .startTimeout => 2 | .rundownTimeout => 3 | .notReady => 4

def Source.code : Source → Nat
  | .auto => 0 | .manual => 1

def DoorKind.code : DoorKind → Nat
  | .hinged => 0 | .sliding => 1

def DoorKind.ofCode? : Nat → Option DoorKind
  | 0 => some .hinged | 1 => some .sliding | _ => none

def DoorState.code : DoorState → Nat
  | .none => 0 | .closed => 1 | .unlatched => 2 | .open => 3 | .heldOpen => 4 | .fault => 5
  | .unreachable => 6

def Reported.code : Reported → Nat
  | .closed => 1 | .unlatched => 2 | .open => 3 | .fault => 5

def Reported.ofCode? : Nat → Option Reported
  | 1 => some .closed | 2 => some .unlatched | 3 => some .open | 5 => some .fault | _ => none

/-- The reported door state that a station sends: one of the list, or a free one of it (R135, log 12). -/
def Reported.ofStation (n : Nat) : Reported :=
  (Reported.ofCode? n).getD
    (match Config.unlistedCode .doorState n % 4 with
    | 0 => .closed
    | 1 => .unlatched
    | 2 => .open
    | _ => .fault)

def BeaconMode.code : BeaconMode → Nat
  | .dark => 0 | .guide => 1 | .alarm => 2

def Regime.code : Regime → Nat
  | .off => 0 | .normal => 1 | .fire => 2

def Regime.ofCode? : Nat → Option Regime
  | 0 => some .off | 1 => some .normal | 2 => some .fire | _ => none

def Measured.code : Measured → Nat
  | .none => 0 | .upstream => 1 | .mean => 2

def StepMode.code : StepMode → Nat
  | .increment => 0 | .fixed => 1 | .paired => 2

def StepMode.ofCode? : Nat → Option StepMode
  | 0 => some .increment | 1 => some .fixed | 2 => some .paired | _ => none

/-- The absent value of a unit number, zone, slot or index field is 0xFF (R181). -/
def optCode (o : Option Nat) : Nat := o.getD 0xFF

def boolCode (b : Bool) : Nat := if b then 1 else 0

/-! ## R183: outcomes -/

def OrderOutcome.code : OrderOutcome → Nat
  | .ok => 0x00 | .okClamped => 0x01
  | .badOrder => 0x10 | .badParameter => 0x11 | .badBuffer => 0x12 | .badZone => 0x13 | .noSuchUnit => 0x14
  | .busy => 0x15 | .ringNotRunning => 0x16 | .ringFolded => 0x17
  | .resurveyed => 0x20 | .superseded => 0x21 | .aborted => 0x22 | .notActive => 0x23
  | .unreachable => 0x30 | .noDelivery => 0x31 | .noAnswer => 0x32
  | .driveFault => 0x40 | .startTimeout => 0x41 | .rundownTimeout => 0x42 | .notReady => 0x43
  | .lockedOut => 0x44 | .inOtherGroup => 0x45
  | .beyondEnd => 0x50 | .readOnly => 0x51

/-- The outcome that a fault cause gives the active part (R109). -/
def FaultCause.outcome : FaultCause → OrderOutcome
  | .none => .driveFault | .driveFault => .driveFault | .startTimeout => .startTimeout
  | .rundownTimeout => .rundownTimeout | .notReady => .notReady

/-! ## R184: event kinds -/

inductive EventKind where
  | gap | resetDone | stationUp | stationSilent | stationDown | stationMismatch | ringFolded | ringClosed
  | recloseFailed | channelQuality | zoneLevel | smokeOn | smokeOff | fanState | doorState | doorHeld
  | smokeAtDoor | regime
  deriving DecidableEq, Repr

def EventKind.code : EventKind → Nat
  | .gap => 0 | .resetDone => 1 | .stationUp => 2 | .stationSilent => 3 | .stationDown => 4
  | .stationMismatch => 5 | .ringFolded => 6 | .ringClosed => 7 | .recloseFailed => 8
  | .channelQuality => 9 | .zoneLevel => 10 | .smokeOn => 11 | .smokeOff => 12 | .fanState => 13
  | .doorState => 14 | .doorHeld => 15 | .smokeAtDoor => 16 | .regime => 17

/-! ## R186: frame kinds -/

def FrameKind.code : FrameKind → Nat
  | .clearAddress => 1 | .takeAddress => 2 | .pageRequest => 3 | .fanStep => 4 | .fanReset => 5
  | .doorBeacon => 6 | .param => 7 | .reclose => 8

/-- The reply kinds that answer a queued frame (R7, R186); a train-wide frame has no reply. -/
def FrameKind.answeredBy : FrameKind → Nat → Bool
  | .pageRequest, k => k == 1 || k == 2
  | .fanStep, k => k == 3
  | .fanReset, k => k == 4
  | .doorBeacon, k => k == 8
  | .param, k => k == 6 || k == 7
  | .clearAddress, _ => false
  | .takeAddress, _ => false
  | .reclose, _ => false

end Sys2Proof.Machine
end

