-- ==== Sys2Proof/Machine/Flags.lean ====
section
/-! DEFINITION. The attention bits and the interrupt line (10 R164), the register reads, and the flag bytes of
slots and image entries (12 R181, R183, R185). -/

namespace Sys2Proof.Machine

/-- The attention bits in ATTN bit order (R181). -/
inductive AttnBit where
  | orderDone | event | postRefused | journalFull | ringState | resetDone
  deriving DecidableEq, Repr

def AttnBit.pos : AttnBit → Nat
  | .orderDone => 0 | .event => 1 | .postRefused => 2 | .journalFull => 3 | .ringState => 4 | .resetDone => 5

/-- Setting a bit that is already set leaves it set (R164). -/
def State.setAttn (b : AttnBit) (s : State) : State :=
  { s with attn := s.attn ||| BitVec.ofNat 6 (2 ^ b.pos) }

/-- The interrupt line is asserted while at least one attention bit is set whose mask bit is set (R164). -/
def State.interruptLine (s : State) : Bool := (s.attn &&& s.mask) != 0

/-- A write to ATTN clears each bit written as 1 and leaves the others (R164). -/
def State.clearAttn (v : BitVec 32) (s : State) : State := { s with attn := s.attn &&& ~~~(v.setWidth 6) }

/-- What the host reads from a register (R164, R181): ID a constant of family code and revision, CTRL the mask
with the soft-reset command reading clear, POST 0, ATTN its six bits. -/
def State.readRegister (s : State) : Nat → BitVec 32
  | 0 => (0x2416 : BitVec 16) ++ (0 : BitVec 8) ++ Config.revision
  | 1 => s.mask.setWidth 32
  | 2 => 0
  | 3 => s.attn.setWidth 32
  | _ => 0

/-- A flag byte: bit i is the i-th flag, from 0, the least significant (R181). -/
def flagByte : List Bool → Nat
  | [] => 0
  | b :: bs => boolCode b + 2 * flagByte bs

/-- The flags byte of a completed slot: CLAMPED when the outcome is OK CLAMPED or the order's rule sets it
(R170). -/
def slotFlags (o : OrderOutcome) (clamped : Bool) : Nat := flagByte [clamped || o == .okClamped]

end Sys2Proof.Machine
end

