-- ==== Sys2Proof/Machine/Ops.lean ====
section
/-! DEFINITION. The named operations over the window, the timers, the journal and the order slots that every
block uses (10_the_shared_window_and_orders.md, 12 R181 to R184). -/

namespace Sys2Proof.Machine

/-! ## The window as a canonical list of cells -/

/-- What the window holds at an address; a byte that is not listed reads 0 (log 2). -/
def Memory.read : List Host.Cell → Nat → Byte
  | [], _ => 0
  | (k, v) :: rest, a => if a = k then v else if a < k then 0 else Memory.read rest a

/-- Store one byte, keeping addresses strictly rising and no entry 0. -/
def Memory.write : List Host.Cell → Nat → Byte → List Host.Cell
  | [], a, b => if b = 0 then [] else [(a, b)]
  | (k, v) :: rest, a, b =>
    if a < k then (if b = 0 then (k, v) :: rest else (a, b) :: (k, v) :: rest)
    else if a = k then (if b = 0 then rest else (a, b) :: rest)
    else (k, v) :: Memory.write rest a b

/-- The canonical form: addresses strictly rising, no entry equal to what an unlisted address reads as. -/
def Memory.wf : List Host.Cell → Bool
  | [] => true
  | (_, v) :: [] => v != 0
  | (k, v) :: (k', v') :: rest => v != 0 && decide (k < k') && Memory.wf ((k', v') :: rest)

/-- Store bytes at rising addresses. -/
def Memory.writeBytes : List Host.Cell → Nat → List Byte → List Host.Cell
  | m, _, [] => m
  | m, a, b :: bs => Memory.writeBytes (Memory.write m a b) (a + 1) bs

/-- `n` bytes from an address on. -/
def Memory.readBytes (m : List Host.Cell) (a n : Nat) : List Byte :=
  (List.range n).map fun i => Memory.read m (a + i)

/-! ## Little-endian fields (R181) -/

def byte (n : Nat) : Byte := BitVec.ofNat 8 n
def le16 (n : Nat) : List Byte := [byte n, byte (n / 0x100)]
def le24 (n : Nat) : List Byte := [byte n, byte (n / 0x100), byte (n / 0x10000)]
def le32 (n : Nat) : List Byte := [byte n, byte (n / 0x100), byte (n / 0x10000), byte (n / 0x1000000)]

/-- A signed 16-bit field is two's complement. -/
def sle16 (v : Int) : List Byte := le16 (v % 0x10000).toNat

def u8 (bs : List Byte) (i : Nat) : Nat := (bs.getD i 0).toNat
def u16 (bs : List Byte) (i : Nat) : Nat := u8 bs i + 0x100 * u8 bs (i + 1)
def u32 (bs : List Byte) (i : Nat) : Nat := u16 bs i + 0x10000 * u16 bs (i + 2)
def s16 (bs : List Byte) (i : Nat) : Int :=
  if u16 bs i < 0x8000 then (u16 bs i : Int) else (u16 bs i : Int) - 0x10000

/-- A field brought to a fixed length with zero bytes. -/
def padTo (n : Nat) (bs : List Byte) : List Byte := (bs ++ List.replicate n 0).take n

def State.readByte (s : State) (a : Nat) : Byte := Memory.read s.mem a
def State.readBytes (s : State) (a n : Nat) : List Byte := Memory.readBytes s.mem a n
def State.write (a : Nat) (bs : List Byte) (s : State) : State := { s with mem := Memory.writeBytes s.mem a bs }

/-- A 16-bit word of the window. -/
def State.readWord (s : State) (a : Nat) : Nat := (s.readByte a).toNat + 0x100 * (s.readByte (a + 1)).toNat

/-! ## Places in the window (00_scope.md 0.7, R182 to R185) -/

def windowEnd : Nat := 0x8000
def flagAt (slot : Nat) : Nat := 0x0100 + slot
def counterAt (table : Nat) : Nat := 0x0140 + 8 * table
def slotAt (slot : Nat) : Nat := 0x0200 + 64 * slot
def journalAt (p : Nat) : Nat := 0x1200 + 16 * p
def transferBase : Nat := 0x3600

/-! ## Counts, clamping and timers -/

/-- A 16-bit count that saturates at 65535 (R1, R16, R47, R173). -/
def sat16 (n : Nat) : Nat := min n 65535

/-- Replaced by the nearest end of the stated range (00_scope.md 0.6). -/
def clampNat (lo hi n : Nat) : Nat := max lo (min hi n)

def clampInt (lo hi v : Int) : Int := max lo (min hi v)

/-- Milliseconds since `start`, counted modulo 2^32 (R56, R70, R88, R157). -/
def elapsed (now start : Clock) : Nat := (now - start).toNat

/-- The clock has reached the expiry of the timer. -/
def Timer.due (now : Clock) (t : Timer) : Bool := decide (t.dur ≤ elapsed now t.start)

/-- Milliseconds to the expiry, 0 once it has passed. -/
def Timer.left (now : Clock) (t : Timer) : Nat := t.dur - elapsed now t.start

def timerDue (now : Clock) (t : Option Timer) : Bool := t.any (Timer.due now)

/-- Seconds remaining of a timer, as the door and regime tables show them (R148, R163). That a part of a second counts
as a whole one is the model's choice (log 67). -/
def secondsLeft (now : Clock) (t : Option Timer) : Nat :=
  match t with
  | none => 0
  | some t => (t.left now + 999) / 1000

/-! ## Records by number -/

def State.fan (s : State) (f : Nat) : Option Fan := s.fans.getD f none
def State.channel (s : State) (c : Nat) : Option Channel := s.channels.getD c none
def State.door (s : State) (d : Nat) : Option Door := s.doors.getD d none
def State.zone (s : State) (z : Nat) : Zone := s.zones.getD z Zone.reset
def State.feeder (s : State) (k : Nat) : Feeder := s.feeders.getD k Feeder.reset
def State.param (s : State) (st : Nat) : Option Transfer := if st = 0 then none else s.params.getD (st - 1) none

/-- The record of a station address 1 to n; none when the address is not enrolled (R23). -/
def State.station (s : State) (st : Nat) : Option Station := if st = 0 then none else s.stations[st - 1]?

/-- The ring entry of a station address 1 to 24 (R1). -/
def State.entry (s : State) (st : Nat) : RingEntry :=
  if st = 0 then RingEntry.reset else s.ring.entries.getD (st - 1) RingEntry.reset

def State.modFan (f : Nat) (g : Fan → Fan) (s : State) : State := { s with fans := s.fans.modify f (Option.map g) }
def State.modChannel (c : Nat) (g : Channel → Channel) (s : State) : State :=
  { s with channels := s.channels.modify c (Option.map g) }
def State.modDoor (d : Nat) (g : Door → Door) (s : State) : State := { s with doors := s.doors.modify d (Option.map g) }
def State.modZone (z : Nat) (g : Zone → Zone) (s : State) : State := { s with zones := s.zones.modify z g }
def State.modFeeder (k : Nat) (g : Feeder → Feeder) (s : State) : State := { s with feeders := s.feeders.modify k g }
def State.modStation (st : Nat) (g : Station → Station) (s : State) : State :=
  if st = 0 then s else { s with stations := s.stations.modify (st - 1) g }
def State.modRing (g : Ring → Ring) (s : State) : State := { s with ring := g s.ring }
def State.modFold (g : Fold → Fold) (s : State) : State := { s with fold := g s.fold }
def State.modPlan (g : Planner → Planner) (s : State) : State := { s with plan := g s.plan }
def State.modEntry (st : Nat) (g : RingEntry → RingEntry) (s : State) : State :=
  if st = 0 then s else s.modRing fun r => { r with entries := r.entries.modify (st - 1) g }
def State.setParam (st : Nat) (t : Option Transfer) (s : State) : State :=
  if st = 0 then s else { s with params := s.params.set (st - 1) t }

/-- The numbers of the enrolled stations, 1 to n. -/
def State.stationNumbers (s : State) : List Nat := (List.range s.stations.length).map (· + 1)

/-- Run an operation for each number of a list in turn. -/
def forEach (l : List Nat) (f : Nat → State → State) (s : State) : State := l.foldl (fun s i => f i s) s

/-! ## Events and the status image (R172) -/

/-- What the tables of the status image are made of at this moment. -/
def State.shown (s : State) : Shown :=
  { ring := s.ring, fold := s.fold, sigA := s.sigA, sigB := s.sigB, stations := s.stations, channels := s.channels,
    zones := s.zones, fans := s.fans, feeders := s.feeders, doors := s.doors, plan := s.plan }

/-- A writer has handled an event to its end: the entries of its tables that have changed since its last update make one
update (R172). What counts as one event where no rule says it is the model's choice (log 8). -/
def State.handledAs (force : Force) (w : Writer) (s : State) : State :=
  { s with events := s.events ++ [{ writer := w, force := force, shown := s.shown }] }

/-- The same for an event whose update writes the changed entries only. -/
def State.handled (w : Writer) (s : State) : State := s.handledAs .none w

/-! ## The journal (R173, R184) -/

/-- The host's read index, taken modulo 256 (R165, R182). -/
def State.journalRead (s : State) : Nat := s.readWord 0x0A % 256

/-- The write index and the gap count shown in the control block (R165, R182). -/
def State.showJournal (s : State) : State := (s.write 0x08 (le16 s.jWrite)).write 0x0C (le16 s.jGap)

/-- Write one record at the write index, advance it, and set EVENT (R173, R184). -/
def State.appendRecord (k : EventKind) (subject d1 d2 : Nat) (s : State) : State :=
  let s := s.write (journalAt s.jWrite)
    (le16 s.jSeq.toNat ++ [byte k.code, 0] ++ le32 s.clock.toNat ++ le16 subject ++ le16 d1 ++ le16 d2 ++ [0, 0])
  (State.setAttn .event { s with jWrite := (s.jWrite + 1) % 256, jSeq := s.jSeq + 1 }).showJournal

/-- The next write position is not the host's read index (R173). -/
def State.journalRoom (s : State) : Bool := (s.jWrite + 1) % 256 != s.journalRead

/-- An event that finds no room is counted, and JOURNAL FULL is set (R173). -/
def State.countGap (s : State) : State :=
  (State.setAttn .journalFull { s with jGap := sat16 (s.jGap + 1) }).showJournal

/-- An event handled with the gap count 0 (R173). -/
def State.journalOne (k : EventKind) (subject d1 d2 : Nat) (s : State) : State :=
  if s.journalRoom then s.appendRecord k subject d1 d2 else s.countGap

/-- An event reported to the journal writer: recorded, recorded after a GAP record, or counted (R173). -/
def State.journal (k : EventKind) (subject d1 d2 : Nat) (s : State) : State :=
  if s.jGap = 0 then s.journalOne k subject d1 d2
  else if s.journalRoom then
    let s := State.appendRecord .gap 0 s.jGap 0 s
    State.journalOne k subject d1 d2 (State.showJournal { s with jGap := 0 })
  else s.countGap

/-! ## Orders: the slots and their completion (R166, R167, R170, R183) -/

def slotEmpty : Nat := 0
def slotPosted : Nat := 1
def slotTaken : Nat := 2
def slotDone : Nat := 3

def State.slotStatus (s : State) (slot : Nat) : Nat := (s.readByte (slotAt slot)).toNat

/-- The order of the active set in a slot. -/
def State.activeOrder (s : State) (slot : Nat) : Option ActiveOrder := s.active.find? (·.slot == slot)

def State.setWork (slot : Nat) (w : Work) (s : State) : State :=
  { s with active := s.active.map fun o => if o.slot = slot then { o with work := w } else o }

/-- The 64 bytes of a completed slot (R170, R183). -/
def completedSlot (copy : List Byte) (o : OrderOutcome) (clamped : Bool) (now : Clock) (count : Nat)
    (body : List Byte) : List Byte :=
  [byte slotDone, copy.getD 1 0, byte o.code, byte (slotFlags o clamped)] ++ padTo 4 (copy.drop 4) ++
    le32 now.toNat ++ le16 count ++ [0, 0] ++ padTo 48 body

/-- The completion of an order that has ended (R170). An order that is no longer in the active set has no
completion. -/
def State.complete (slot : Nat) (o : OrderOutcome) (clamped : Bool) (count : Nat) (body : List Byte)
    (s : State) : State :=
  match s.activeOrder slot with
  | none => s
  | some a =>
    let s := (s.write (slotAt slot) (completedSlot a.copy o clamped s.clock count body)).write (flagAt slot) [1]
    State.setAttn .orderDone { s with active := s.active.filter fun x => x.slot != slot }

/-- The count of result items of an order that ends without content in its result, though the order table names one for
it: 0 for the endings at taking that R183 lists, and 1 for every other (log 11). -/
def OrderOutcome.emptyCount : OrderOutcome → Nat
  | .badOrder | .badParameter | .badBuffer | .badZone | .noSuchUnit | .busy | .ringNotRunning => 0
  | .ok | .okClamped | .ringFolded | .resurveyed | .superseded | .aborted | .notActive | .unreachable | .noDelivery
  | .noAnswer | .driveFault | .startTimeout | .rundownTimeout | .notReady | .lockedOut | .inOtherGroup | .beyondEnd
  | .readOnly => 1

/-- An ending without content in its result: the body is empty (R183, log 11). -/
def State.completeBare (slot : Nat) (o : OrderOutcome) (s : State) : State := s.complete slot o false o.emptyCount []

/-- The taking of the head of the intake queue (R167): its number leaves the queue, the 64 bytes go into the
active set, the slot becomes TAKEN and its completion flag 0. -/
def State.takeHead (slot : Nat) (s : State) : State :=
  let copy := s.readBytes (slotAt slot) 64
  let s := { s with intake := s.intake.tail, active := s.active ++ [ActiveOrder.mk slot copy .quick] }
  (s.write (slotAt slot) [byte slotTaken]).write (flagAt slot) [0]

/-- The dispatcher's step for the row of one order: when the head of the intake queue stands POSTED with that
order code it is taken and `run` is given its slot and its body; otherwise the step does not come about and
nothing changes (log 5). -/
def State.takeOrder (code : Nat) (run : Nat → List Byte → State → State) (s : State) : State :=
  match s.intake with
  | [] => s
  | slot :: _ =>
    if s.slotStatus slot = slotPosted ∧ (s.readByte (slotAt slot + 1)).toNat = code then
      run slot (s.readBytes (slotAt slot + 16) 48) (s.takeHead slot)
    else s

/-- A region of the transfer area passes its test (R169). -/
def regionOk (offset length : Nat) : Bool := decide (transferBase ≤ offset ∧ offset + length ≤ windowEnd)

/-- Write the number and the reason of a refusal into the control block and set POST REFUSED (R166, R167). -/
def State.refusePost (slot reason : Nat) (s : State) : State :=
  State.setAttn .postRefused (s.write 0x0E [byte slot, byte reason])

/-- The enrolled counts of the control block (R23, R35, R182). -/
def State.showEnrolled (stations fans channels doors : Nat) (s : State) : State :=
  s.write 0x10 [byte stations, byte fans, byte channels, byte doors]

/-- The orders that need the ring end RING NOT RUNNING in these ring states (R168). -/
def State.ringNotRunning (s : State) : Bool := s.ring.state == .idle || s.ring.state == .enrolling

end Sys2Proof.Machine
end

