-- ==== Sys2Proof/Machine/Ring.lean ====
section
/-! DEFINITION. The ring record's shared operations: changes of the ring state, offers to the outbound queues,
tags, and the ends of traffic (01_the_niche_ring.md R1, R8, R9; 03 R47, R59). -/

namespace Sys2Proof.Machine

/-- Set the ring state; RING STATE is set at each change (R59, R164). -/
def State.setRingState (r : RingState) (s : State) : State :=
  if s.ring.state = r then s else State.setAttn .ringState (s.modRing fun g => { g with state := r })

/-- The fold record when the ring becomes ENROLLING or IDLE: everything but the two counts as after reset
(R47). That the heal mark of R59, which R47 does not list, is cleared too is the model's choice (log 97). -/
def Fold.cleared (f : Fold) : Fold := { Fold.reset with count := f.count, failures := f.failures }

/-- The clearing of R9 when the ring state becomes ENROLLING or IDLE, with the fold record (R47). Frames asked
for and not yet placed go with the queues. -/
def State.clearRing (s : State) : State :=
  (s.modRing fun g => { g with
    entries := List.replicate 24 RingEntry.reset, outstanding := [], pool := List.range 64, resting := [],
    framePtr := 1, slotPtr := 1, trainWide := [] }).modFold Fold.cleared

/-- The ring becomes IDLE: the cycle timer stops, no further train is sent, and every train in flight will be
discarded uncounted, since no cycle counts as opened (R1, R9, log 13). -/
def State.ringToIdle (s : State) : State :=
  let s := (s.setRingState .idle).clearRing
  (s.modRing fun g => { g with
    timer := none, kind := .one, phase := .running, heard := [], trainA := none, trainB := none,
    opened := 0 }).handled .ring

/-! ## Offers (R8) -/

/-- The four answers to an offer (R8). -/
inductive OfferAnswer where
  | accepted | full | unreachable | placed
  deriving DecidableEq, Repr

/-- The station has an enrolled address and its link state admits frames (R8). -/
def State.reachable (s : State) (st : Nat) : Bool := (s.station st).any fun r => r.link != .down

/-- An offer of a queued frame for a station (R8); an accepted one changes the queue depth that is shown (R22). -/
def State.offer (st : Nat) (f : QFrame) (s : State) : OfferAnswer × State :=
  if !s.reachable st then (.unreachable, s)
  else if 8 ≤ (s.entry st).queue.length then (.full, s)
  else (.accepted, (s.modEntry st fun e => { e with queue := e.queue ++ [f] }).handled .ring)

/-- The frame is an unsent FAN STEP of this fan. -/
def QFrame.stepOf (fan : Nat) (f : QFrame) : Bool :=
  match f.origin with
  | .fanStep g _ => g == fan
  | _ => false

/-- An offer of a FAN STEP (R8): it takes the place of an unsent FAN STEP of the same fan, whether or not the
queue is full; an offer made as a replacement whose frame has left the queue is refused PLACED. -/
def State.offerStep (st fan : Nat) (f : QFrame) (replacement : Bool) (s : State) : OfferAnswer × State :=
  if !s.reachable st then (.unreachable, s)
  else if (s.entry st).queue.any (QFrame.stepOf fan) then
    (.accepted, s.modEntry st fun e => { e with queue := e.queue.map fun q => if q.stepOf fan then f else q })
  else if replacement then (.placed, s)
  else s.offer st f

/-- The originator asks for a train-wide frame for the next train built (R7). -/
def State.askTrainWide (w : TrainWide) (s : State) : State :=
  s.modRing fun g => { g with trainWide := g.trainWide ++ [w] }

/-! ## Tags and ends of frames (R1, R9) -/

/-- A tag returned to the tail of the pool first rests (R1). -/
def State.returnTag (tag : Nat) (s : State) : State :=
  s.modRing fun g => { g with resting := g.resting ++ [(tag, g.cycle)] }

/-- The rest of a tag returned in cycle `back` has ended at the opening of cycle `now` (R1). -/
def restOver (now back : CycleNo) : Bool := decide (9 ≤ (now - back).toNat)

/-- The tags whose rest has ended join the tail of the pool in the order of their return (R1). -/
def State.endRests (s : State) : State :=
  s.modRing fun g => { g with
    pool := g.pool ++ (g.resting.filter fun r => restOver g.cycle r.2).map (·.1),
    resting := g.resting.filter fun r => !restOver g.cycle r.2 }

def State.outFrame (s : State) (tag : Nat) : Option OutFrame := s.ring.outstanding.find? (·.tag == tag)

def State.modOutFrame (tag : Nat) (g : OutFrame → OutFrame) (s : State) : State :=
  s.modRing fun r => { r with outstanding := r.outstanding.map fun o => if o.tag = tag then g o else o }

/-- An entry ends: it leaves the table and its tag goes to rest (R12, R14, R15). -/
def State.endOutFrame (tag : Nat) (s : State) : State :=
  (s.modRing fun r => { r with outstanding := r.outstanding.filter fun o => o.tag != tag }).returnTag tag

/-- All traffic of a station ends when it goes DOWN (R9). The originators act on UNREACHABLE as the devices'
rules state (R39, R111, R142, R178). That the tags are returned in the order of the table is the model's choice
(log 49). -/
def State.endTraffic (st : Nat) (s : State) : State :=
  let tags := (s.ring.outstanding.filter fun o => o.station == st).map (·.tag)
  (forEach tags State.endOutFrame (s.modEntry st fun e => { e with queue := [] })).handled .ring

/-- The ending of a FAN RESET whose part has ended is discarded (R119). -/
def State.orphanReset (fan : Nat) (s : State) : State :=
  let orphan (q : QFrame) : QFrame := if q.origin = .fanReset fan then { q with origin := .nobody } else q
  s.modRing fun r => { r with
    entries := r.entries.map fun e => { e with queue := e.queue.map orphan },
    outstanding := r.outstanding.map fun o => { o with frame := orphan o.frame } }

end Sys2Proof.Machine
end

