-- ==== Sys2Proof/Machine/Fans.lean ====
section
/-! DEFINITION. The fan sequencer and the start arbiter (06_jet_and_passage_fans.md R98 to R111,
07_feeder_start_allowance.md R123 to R132) and the endings of fan order parts (R114 to R120). -/

namespace Sys2Proof.Machine

/-- The default profile (R113). -/
def Profile.default : Profile := { interval := 4, energize := 10, rundown := 120, dwell := 10 }

/-- The target of a fan (R100). -/
def Fan.target (f : Fan) : Speed :=
  { step := min f.requested.step f.cap, dir := if f.reversible then f.requested.dir else f.commanded.dir }

/-- The last applied heartbeat shows standstill (R103, R117). -/
def Fan.atRest (f : Fan) : Bool := f.heard && f.standstill

/-- A STOPPED fan is ready to start at standstill, or when adopted at actual step 0 with no heartbeat since
(R103). -/
def Fan.ready (f : Fan) : Bool := f.atRest || (!f.heard && f.actual.step == 0)

/-- The fan is in the start phase: QUEUED with its slot held, or ENERGIZING (R105). -/
def Fan.starting (f : Fan) : Bool := (f.state == .queued && f.slotHeld) || f.state == .energizing

/-- The step interval of the profile in milliseconds (R113: units of 0.5 s). -/
def Fan.stepTimer (f : Fan) (now : Clock) : Timer := { start := now, dur := 500 * f.profile.interval }
def Fan.energizeTimer (f : Fan) (now : Clock) : Timer := { start := now, dur := 1000 * f.profile.energize }
def Fan.rundownTimer (f : Fan) (now : Clock) : Timer := { start := now, dur := 1000 * f.profile.rundown }
def Fan.dwellTimer (f : Fan) (now : Clock) : Timer := { start := now, dur := 1000 * f.profile.dwell }

/-! ## The journal of a fan's states (R122) -/

def FanState.journalled : FanState → Bool
  | .running | .stopped | .fault | .unreachable | .lockedOut => true
  | .queued | .energizing | .ramping | .runningDown | .reverseDwell => false

/-- The second detail word of FAN STATE: the state after, and the cause in the high byte for FAULT (R184). -/
def fanStateWord (st : FanState) (c : FaultCause) : Nat :=
  st.code + (if st = .fault then 0x100 * c.code else 0)

/-- Journal a fan's entry into a state from the state code `before` (R122). -/
def State.journalFan (f : Nat) (before : Nat) (s : State) : State :=
  match s.fan f with
  | none => s
  | some r =>
    if r.state.journalled then s.journal .fanState f before (fanStateWord r.state r.cause) else s

/-- A fan enters a state (R122). -/
def State.enterFan (f : Nat) (st : FanState) (s : State) : State :=
  match s.fan f with
  | none => s
  | some r =>
    if r.state = st then s
    else (s.modFan f fun r => { r with state := st }).journalFan f r.state.code

/-! ## Parts of fan orders (R116, R120) -/

/-- The outcome of a fan order whose parts have all ended (R120). -/
def partsOutcome (parts : List FanPart) : OrderOutcome :=
  ((parts.filterMap FanPart.outcome).find? (· != .ok)).getD .ok

/-- The result of a fan order: members, 0, then the pairs of fan and outcome in ascending fan number (R120,
R183). -/
def partsBody (parts : List FanPart) : List Byte :=
  [byte parts.length, 0] ++ parts.flatMap fun p => [byte p.fan, byte (p.outcome.getD .ok).code]

/-- The completion of a fan order once every part has ended (R120, R170). That the CLAMPED flag stands in the slot of an
order naming one fan too, when its part was marked clamped and has ended with another outcome, is deduced (log 111). -/
def State.completeParts (slot : Nat) (s : State) : State :=
  match s.activeOrder slot with
  | none => s
  | some o =>
    match o.work with
    | .fans parts clamped =>
      if parts.all fun p => p.outcome.isSome then
        s.complete slot (partsOutcome parts) clamped parts.length (partsBody parts)
      else s
    | _ => s

/-- The part of an order for a fan ends with an outcome; the order completes with its last part (R120). -/
def State.partOutcome (slot f : Nat) (out : OrderOutcome) (s : State) : State :=
  match s.activeOrder slot with
  | none => s
  | some o =>
    match o.work with
    | .fans parts clamped =>
      let parts := parts.map fun p => if p.fan = f ∧ p.outcome = none then { p with outcome := some out } else p
      (s.setWork slot (.fans parts clamped)).completeParts slot
    | _ => s

/-- The active part of a fan ends (R116 to R119). A FAN RESET of the part that is still in flight is discarded
at its end; the run-down limit that a part started for a fan in FAULT ends with the part (R117, R118). -/
def State.endPart (f : Nat) (out : OrderOutcome) (s : State) : State :=
  match s.fan f with
  | none => s
  | some r =>
    match r.part with
    | none => s
    | some p =>
      let s := s.modFan f fun r => { r with part := none, timer := if r.state = .fault then none else r.timer }
      (s.orphanReset f).partOutcome p.slot f out

/-! ## The start arbiter (chapter 7) -/

/-- A fan leaves the waiting list without a grant (R129). -/
def State.withdraw (f : Nat) (s : State) : State :=
  match s.fan f with
  | none => s
  | some r =>
    let k := s.feeder r.feeder
    if k.class1.contains f || k.class0.contains f then
      (s.modFeeder r.feeder fun k => { k with class1 := k.class1.erase f, class0 := k.class0.erase f }).handled .feeders
    else s

/-- A pending allowance takes effect when the energizing count falls to it or below (R132). -/
def Feeder.settlePending (k : Feeder) : Feeder :=
  match k.pendingLow with
  | none => k
  | some p => if k.energizing.length ≤ p then { k with allowance := p, pendingLow := none } else k

/-- A fan leaves the energizing set, and a pending allowance is judged (R127, R132). -/
def State.dropSlot (f : Nat) (s : State) : State :=
  match s.fan f with
  | none => s
  | some r =>
    (s.modFan f fun r => { r with slotHeld := false }).modFeeder r.feeder fun k =>
      Feeder.settlePending { k with energizing := k.energizing.erase f }

/-- The fan whose turn is next: the head of class 1, otherwise of class 0 (R125). -/
def Feeder.next (k : Feeder) : Option Nat := (k.class1 ++ k.class0).head?

/-- Whether a grant may be made at this moment (R125). -/
def Feeder.mayGrant (k : Feeder) : Bool := k.pendingLow.isNone && decide (k.energizing.length < k.allowance)

/-- A granted fan leaves the list and joins the energizing set (R125). -/
def Feeder.enterEnergizing (f : Nat) (k : Feeder) : Feeder :=
  { k with class1 := k.class1.erase f, class0 := k.class0.erase f, energizing := k.energizing ++ [f] }

/-- The FAN STEP frame of a fan's commanded values (R101, R186). -/
def Fan.stepFrameFor (f : Nat) (r : Fan) : QFrame :=
  { kind := .fanStep, payload := [byte r.index, byte r.commanded.dir.code, byte r.commanded.step],
    origin := .fanStep f (r.state == .queued && r.slotHeld && r.commanded.step == 1), held := 0 }

/-- A fan whose station has gone down becomes UNREACHABLE (R111); the arbiter's further grants are left to
the caller. -/
def State.fanLostBare (f : Nat) (s : State) : State :=
  match s.fan f with
  | none => s
  | some r =>
    if r.state = .unreachable then s
    else
      let s := if r.slotHeld then (s.dropSlot f).handled .feeders else s.withdraw f
      let s := s.modFan f fun r => { r with timer := none, reversal := false, stepFrame := .none }
      (s.endPart f .unreachable).enterFan f .unreachable

/-- Compare the commanded values with the last-sent values and offer a FAN STEP when they differ (R101). A
refusal UNREACHABLE puts the fan in the case of R111; a frame refused FULL is offered again at the next
opening. That it is offered again before that opening too, when the fan is compared again, is the model's choice (log
100). -/
def State.compareFan (f : Nat) (s : State) : State :=
  match s.fan f with
  | none => s
  | some r =>
    if r.state = .unreachable ∨ r.lastSent = some r.commanded ∨ r.stepFrame = .outstanding then s
    else
      match s.offerStep r.station f (r.stepFrameFor f) (r.stepFrame == .queued) with
      | (.accepted, s) => s.modFan f fun r => { r with lastSent := some r.commanded, stepFrame := .queued }
      | (.placed, s) => s.modFan f fun r => { r with stepFrame := .outstanding }
      | (.full, s) => s
      | (.unreachable, s) => s.fanLostBare f

/-- The fan sequencer's answer to a grant (R104, R126): the slot is kept and the start frame offered, or given
back at once. -/
def State.takeGrant (f : Nat) (s : State) : State :=
  match s.fan f with
  | none => s
  | some r =>
    if r.state = .queued ∧ ¬r.slotHeld ∧ 0 < r.target.step then
      (s.modFan f fun r => { r with
        slotHeld := true, commanded := { step := 1, dir := r.target.dir },
        timer := some (r.energizeTimer s.clock) }).compareFan f
    else s.modFeeder r.feeder fun k => Feeder.settlePending { k with energizing := k.energizing.erase f }

/-- Grants are made one by one while the conditions of R125 hold; each takes one fan from the list. -/
def State.grantLoop : Nat → Nat → State → State
  | 0, _, s => s
  | n + 1, k, s =>
    if (s.feeder k).mayGrant then
      match (s.feeder k).next with
      | none => s
      | some f => State.grantLoop n k ((s.modFeeder k (Feeder.enterEnergizing f)).takeGrant f)
    else s

/-- The grants of one moment on a feeder (R125): with the request, the slot given back or the changed allowance that allows
them, one event of the start arbiter (log 8). -/
def State.grants (k : Nat) (s : State) : State :=
  (State.grantLoop ((s.feeder k).class1.length + (s.feeder k).class0.length) k s).handled .feeders

/-- A slot is given back and further grants are made (R127). -/
def State.giveBack (f : Nat) (s : State) : State :=
  match s.fan f with
  | none => s
  | some r => if r.slotHeld then (s.dropSlot f).grants r.feeder else s

/-- R111 with the grants that a slot given back allows. -/
def State.fanLost (f : Nat) (s : State) : State :=
  match s.fan f with
  | none => s
  | some r => if r.slotHeld then (s.fanLostBare f).grants r.feeder else s.fanLostBare f

/-- The class a fan waits in (R103, R124). -/
def Fan.firstClass (r : Fan) : Bool := r.kind == .passage && r.source == .auto && r.doorReq

/-- A request for a start slot (R124). -/
def State.requestSlot (f : Nat) (s : State) : State :=
  match s.fan f with
  | none => s
  | some r =>
    let k := s.feeder r.feeder
    if k.class1.contains f || k.class0.contains f || k.energizing.contains f then s
    else
      (s.modFeeder r.feeder fun k =>
        if r.firstClass then { k with class1 := k.class1 ++ [f] } else { k with class0 := k.class0 ++ [f] }).grants
          r.feeder

/-! ## The state machine (R101 to R111) -/

/-- A STOPPED fan with a target step above 0 that is ready becomes QUEUED and asks for a slot (R103). -/
def State.startIfReady (f : Nat) (s : State) : State :=
  match s.fan f with
  | none => s
  | some r =>
    if r.state = .stopped ∧ 0 < r.target.step ∧ r.ready then (s.enterFan f .queued).requestSlot f else s

/-- A fan whose commanded step has reached 0 is in RUNNING DOWN (R107). -/
def State.enterRunDown (f : Nat) (s : State) : State :=
  s.modFan f fun r => { r with state := .runningDown, timer := some (r.rundownTimer s.clock) }

/-- The same, unless the fan has just become UNREACHABLE. -/
def State.runDownIfHere (f : Nat) (s : State) : State :=
  match s.fan f with
  | none => s
  | some r => if r.state = .unreachable then s else s.enterRunDown f

/-- A fan gives its slot back, or leaves the waiting list it may stand in (R103, R127, R129). -/
def State.leaveFeeder (f : Nat) (s : State) : State :=
  match s.fan f with
  | none => s
  | some r => if r.slotHeld then s.giveBack f else s.withdraw f

/-- The start is broken off: commanded step 0, the slot given back, RUNNING DOWN (R105). That the FAN STEP at step 0 is
offered before the start frames of the grants its slot allows is the model's choice (R127, log 88). -/
def State.breakStart (f : Nat) (mark : Bool) (s : State) : State :=
  let s := s.modFan f fun r => { r with
    commanded := { r.commanded with step := 0 }, reversal := r.reversal || mark, timer := none }
  ((s.compareFan f).giveBack f).runDownIfHere f

/-- The fan enters FAULT (R109), from LOCKED OUT too; a fan that is in FAULT already keeps its cause, and an UNREACHABLE
one has no frame or timer that could fault it (R111). That its FAN STEP at step 0 is offered by the caller, after the start
frames of the grants its slot allows, is the model's choice (R127, log 88). -/
def State.enterFault (f : Nat) (c : FaultCause) (s : State) : State :=
  match s.fan f with
  | none => s
  | some r =>
    if r.state = .fault ∨ r.state = .unreachable then s
    else
      let s := s.modFan f fun r => { r with
        cause := c, commanded := { r.commanded with step := 0 }, reversal := false, timer := none }
      let s := s.leaveFeeder f
      let s :=
        match r.part with
        | some { work := .run _, .. } => s.endPart f c.outcome
        | some { work := .stop, .. } => s.endPart f c.outcome
        | _ => s
      s.enterFan f .fault

/-- A fault code in a heartbeat takes the fan to FAULT, unless it is LOCKED OUT (R102). -/
def State.faultByCode (f : Nat) (s : State) : State :=
  if (s.fan f).any fun r => r.state == .lockedOut then s else s.enterFault f .driveFault

/-- The fan acts on a change of its target as its state requires (R103, R105 to R108). -/
def State.actOnTarget (f : Nat) (s : State) : State :=
  match s.fan f with
  | none => s
  | some r =>
    let t := r.target
    match r.state with
    | .stopped => s.startIfReady f
    | .queued =>
      if r.slotHeld then
        if t.step = 0 ∨ t.dir ≠ r.commanded.dir then s.breakStart f (t.dir != r.commanded.dir) else s
      else if t.step = 0 then (s.withdraw f).enterFan f .stopped
      else s
    | .energizing =>
      if t.step = 0 ∨ t.dir ≠ r.commanded.dir then s.breakStart f (t.dir != r.commanded.dir) else s
    | .ramping => s.modFan f fun r => { r with reversal := t.dir != r.commanded.dir }
    | .running =>
      if t = r.commanded then s
      else s.modFan f fun r => { r with
        state := .ramping, timer := some (r.stepTimer s.clock), reversal := t.dir != r.commanded.dir }
    | .runningDown => s.modFan f fun r => { r with reversal := r.reversal || t.dir != r.commanded.dir }
    | .reverseDwell | .fault | .lockedOut | .unreachable => s

/-- Offer FAN RESET for the FAN HOME part of a fan (R117). -/
def State.offerReset (f : Nat) (s : State) : State :=
  match s.fan f with
  | none => s
  | some r =>
    match r.part with
    | some { slot := slot, work := .home .offering } =>
      match s.offer r.station { kind := .fanReset, payload := [byte r.index], origin := .fanReset f, held := 0 } with
      | (.accepted, s) => s.modFan f fun r => { r with part := some { slot := slot, work := .home .resetting } }
      | (.unreachable, s) => s.fanLost f
      | (_, s) => s
    | _ => s

/-- The outcome of a FAN RUN part at its completion, if it completes now (R114). -/
def Fan.runOutcome (r : Fan) (want : Speed) : Option OrderOutcome :=
  let t := r.target
  if r.state = .running ∧ r.commanded = t then
    some (if t.step < want.step ∨ (r.reversible = false ∧ t.dir ≠ want.dir) then .okClamped else .ok)
  else if r.state = .stopped ∧ r.cap = 0 then some .okClamped
  else none

/-- Judge whether the active part of a fan completes or goes on to its next phase (R114, R115, R117). -/
def State.checkPart (f : Nat) (s : State) : State :=
  match s.fan f with
  | none => s
  | some r =>
    match r.part with
    | some { slot := slot, work := w } =>
      match w with
      | .run want =>
        match r.runOutcome want with
        | some out => s.endPart f out
        | none => s
      | .stop => if r.state = .stopped then s.endPart f .ok else s
      | .home .waiting =>
        if r.state = .stopped ∨ (r.state = .fault ∧ r.atRest) then
          (s.modFan f fun r => { r with
            part := some { slot := slot, work := .home .offering },
            timer := if r.state = .fault then none else r.timer }).offerReset f
        else s
      | .home _ => s
      | .lockout => s
    | none => s

/-- After a fan has acted: send what differs and judge its part (R101, R114). -/
def State.settleFan (f : Nat) (s : State) : State := (s.compareFan f).checkPart f

/-- An accepted write of requested values; a write that leaves them as they were causes nothing (R99). -/
def State.writeRequest (f : Nat) (v : Speed) (s : State) : State :=
  match s.fan f with
  | none => s
  | some r =>
    let v : Speed := { v with step := min v.step r.top }
    if r.requested = v then s
    else ((s.modFan f fun r => { r with requested := v }).actOnTarget f).settleFan f

/-- A write by the planner: accepted for an AUTO JET fan that is not LOCKED OUT (R99). -/
def State.plannerWrite (f : Nat) (v : Speed) (s : State) : State :=
  match s.fan f with
  | none => s
  | some r =>
    if r.kind = .jet ∧ r.source = .auto ∧ r.state ≠ .lockedOut then
      (s.modFan f fun r => { r with doorReq := false }).writeRequest f v
    else s

/-- A write by the door supervisor: accepted for an AUTO PASSAGE fan that is not LOCKED OUT (R99). -/
def State.doorWrite (f : Nat) (v : Speed) (s : State) : State :=
  match s.fan f with
  | none => s
  | some r =>
    if r.kind = .passage ∧ r.source = .auto ∧ r.state ≠ .lockedOut then
      (s.modFan f fun r => { r with doorReq := true }).writeRequest f v
    else s

/-- A write by a manual order taken for the fan (R99). -/
def State.manualWrite (f : Nat) (v : Speed) (s : State) : State :=
  match s.fan f with
  | none => s
  | some r =>
    if r.state = .lockedOut then s
    else (s.modFan f fun r => { r with source := .manual, doorReq := false }).writeRequest f v

/-- The commanded step jumps down to a lowered cap at once (R100). -/
def State.capJump (f : Nat) (s : State) : State :=
  match s.fan f with
  | none => s
  | some r =>
    if r.commanded.step ≤ r.cap then s
    else
      match r.state with
      | .queued | .energizing => if r.cap = 0 ∧ r.slotHeld then s.breakStart f false else lower s
      | .ramping => if r.cap = 0 then (lower s).enterRunDown f else lower s
      | .running =>
        if r.cap = 0 then (lower s).enterRunDown f
        else (lower s).modFan f fun r => { r with state := .ramping, timer := some (r.stepTimer s.clock) }
      | .stopped | .runningDown | .reverseDwell | .fault | .lockedOut | .unreachable => lower s
where
  /-- The commanded step becomes the cap. -/
  lower (s : State) : State := s.modFan f fun r => { r with commanded := { r.commanded with step := min r.commanded.step r.cap } }

/-- The door supervisor writes a fan's effective cap (R100, R138); a value equal to the one stored is not
written. That a cap jump is no move at which RUNNING is judged (R106) is the model's choice (log 80). -/
def State.setCap (f : Nat) (cap : Nat) (s : State) : State :=
  match s.fan f with
  | none => s
  | some r =>
    if r.cap = cap then s
    else (((s.modFan f fun r => { r with cap := cap }).capJump f).actOnTarget f).settleFan f

/-- RAMPING becomes RUNNING when the commanded values equal the target and the actual values equal them
(R106). -/
def State.judgeRunning (f : Nat) (s : State) : State :=
  match s.fan f with
  | none => s
  | some r =>
    if r.state = .ramping ∧ r.commanded = r.target ∧ 0 < r.commanded.step ∧ r.actual = r.commanded then
      (s.modFan f fun r => { r with timer := none, reversal := false }).enterFan f .running
    else s

/-- The reverse dwell is over: the mark is cleared and the fan is STOPPED (R108). -/
def State.endDwell (f : Nat) (s : State) : State :=
  ((s.modFan f fun r => { r with reversal := false, timer := none }).enterFan f .stopped).startIfReady f

/-- Standstill is shown in RUNNING DOWN (R107, R108); a dwell of 0 s is over as soon as it starts. -/
def State.comeToRest (f : Nat) (s : State) : State :=
  match s.fan f with
  | none => s
  | some r =>
    if r.reversal then
      if r.profile.dwell = 0 then
        (s.modFan f fun r => { r with state := .reverseDwell }).endDwell f
      else s.modFan f fun r => { r with state := .reverseDwell, timer := some (r.dwellTimer s.clock) }
    else ((s.modFan f fun r => { r with timer := none }).enterFan f .stopped).startIfReady f

/-- The wait of FAN LOCKOUT: standstill with commanded step 0 takes the fan to LOCKED OUT (R118). -/
def State.lockIfAtRest (f : Nat) (s : State) : State :=
  match s.fan f with
  | none => s
  | some r =>
    match r.part with
    | some { work := .lockout, .. } =>
      if r.standstill ∧ r.commanded.step = 0 ∧
          (r.state = .runningDown ∨ r.state = .reverseDwell ∨ r.state = .stopped ∨ r.state = .fault) then
        let s := s.modFan f fun r => { r with timer := none, reversal := false }
        (s.endPart f .ok).enterFan f .lockedOut
      else s
    | _ => s

/-- A FAN HOME part has made its fan STOPPED (R117). That a fan which has been set going since its FAN RESET was offered
gives its slot or its place back and has commanded step 0, as a STOPPED fan has (R100, R123), is deduced (log 84). -/
def State.homeDone (f : Nat) (s : State) : State :=
  let s := s.modFan f fun r => { r with
    cause := .none, notReady := 0, timer := none, reversal := false, commanded := { r.commanded with step := 0 } }
  ((s.leaveFeeder f).enterFan f .stopped).endPart f .ok

/-- The heartbeat after RESET ACK DONE ends a FAN HOME part (R117). -/
def State.judgeHome (f : Nat) (s : State) : State :=
  match s.fan f with
  | none => s
  | some r =>
    match r.part with
    | some { work := .home .judging, .. } =>
      if r.faultCode = 0 then s.homeDone f
      else
        ((s.faultByCode f).modFan f fun r => { r with cause := .driveFault }).endPart f .driveFault
    | _ => s

/-- The state acts on the actual values and the standstill flag of an applied heartbeat (R102, R103, R105 to
R107). At a completed energize the slot is given back and its grants made here (R105, R127), and the fan's own FAN STEP, when
its last-sent values are UNKNOWN, is offered by the caller: that it comes after the start frames of those grants is the model's
choice (log 115). -/
def State.actOnHeartbeat (f : Nat) (s : State) : State :=
  match s.fan f with
  | none => s
  | some r =>
    match r.state with
    | .stopped => s.startIfReady f
    | .queued | .energizing =>
      if r.starting ∧ 1 ≤ r.actual.step ∧ r.actual.dir = r.commanded.dir then
        let s := (s.modFan f fun r => { r with
          state := .ramping, notReady := 0, timer := some (r.stepTimer s.clock) }).giveBack f
        s.judgeRunning f
      else s
    | .ramping => s.judgeRunning f
    | .runningDown => if r.standstill then s.comeToRest f else s
    | .running | .reverseDwell | .fault | .lockedOut | .unreachable => s

/-- A numbered fan's entry of an applied heartbeat (R102). That the waits of FAN HOME and then FAN LOCKOUT are judged after
the fault code and before the state acts is the model's choice (log 105). -/
def State.fanHeartbeat (f : Nat) (actual : Speed) (standstill : Bool) (code : Nat) (s : State) : State :=
  let s := s.modFan f fun r => { r with
    actual := actual, standstill := standstill, faultCode := code, heard := true }
  let s := if code = 0 then s else s.faultByCode f
  ((((s.judgeHome f).lockIfAtRest f).actOnHeartbeat f).settleFan f)

/-- STEP ACK NOT READY answers the start frame of a fan in its start phase (R104, R128). That the FAN STEP at step 0 is
offered before the grants, and at the third time after them, is the model's choice (log 88). -/
def State.startNotReady (f : Nat) (s : State) : State :=
  match s.fan f with
  | none => s
  | some r =>
    let s := (s.modFan f fun r => { r with
      notReady := r.notReady + 1, commanded := { r.commanded with step := 0 }, lastSent := none,
      timer := none }).dropSlot f
    if 3 ≤ r.notReady + 1 then ((s.enterFault f .notReady).grants r.feeder).settleFan f
    else (((s.compareFan f).requestSlot f).grants r.feeder).settleFan f

/-- How a FAN STEP, FAN RESET or DOOR BEACON frame ended (R12, R14, R15). -/
inductive FrameEnding where
  | reply (qualifier : Nat)
  | noDelivery
  | noAnswer
  deriving DecidableEq, Repr

/-- A FAN STEP frame of a fan has ended (R101, R104). The qualifiers are ACCEPTED 0, NOT READY 1 and
REFUSED 2 (R186). -/
def State.fanStepEnded (f : Nat) (start : Bool) (e : FrameEnding) (s : State) : State :=
  let s := s.modFan f fun r => { r with stepFrame := .none }
  match s.fan f with
  | none => s
  | some r =>
    let phase := start && r.state == .queued && r.slotHeld
    match e with
    | .reply 0 => (if phase then s.modFan f fun r => { r with state := .energizing } else s).settleFan f
    | .reply 1 =>
      if phase then s.startNotReady f else (s.modFan f fun r => { r with lastSent := none }).settleFan f
    | .reply _ => (s.enterFault f .driveFault).settleFan f
    | .noDelivery => (s.modFan f fun r => { r with lastSent := none }).settleFan f
    | .noAnswer => (s.modFan f fun r => { r with lastSent := none }).settleFan f

/-- A FAN RESET frame of a fan's FAN HOME part has ended (R117). -/
def State.fanResetEnded (f : Nat) (e : FrameEnding) (s : State) : State :=
  match s.fan f with
  | none => s
  | some r =>
    match r.part with
    | some { slot := slot, work := .home .resetting } =>
      match e with
      | .reply 0 => s.modFan f fun r => { r with part := some { slot := slot, work := .home .judging } }
      | .reply _ =>
        ((((s.enterFault f .driveFault).modFan f fun r => { r with cause := .driveFault }).endPart f
          .driveFault)).settleFan f
      | .noDelivery => s.endPart f .noDelivery
      | .noAnswer => s.endPart f .noAnswer
    | _ => s

/-- The ring controller has placed a FAN STEP of the fan in a train (R101). -/
def State.fanStepPlaced (f : Nat) (s : State) : State := s.modFan f fun r => { r with stepFrame := .outstanding }

/-! ## Timers (R105 to R108) -/

/-- One step of the ramp toward the target, or toward 0 while a change of direction is owed (R106). -/
def Fan.rampStep (r : Fan) : Nat :=
  let goal := if r.target.dir = r.commanded.dir then r.target.step else 0
  if r.commanded.step < goal then r.commanded.step + 1
  else if goal < r.commanded.step then r.commanded.step - 1
  else r.commanded.step

/-- The step interval of a RAMPING fan expires (R106). -/
def State.stepExpiry (f : Nat) (s : State) : State :=
  match s.fan f with
  | none => s
  | some r =>
    if r.state = .ramping ∧ timerDue s.clock r.timer then
      let s := s.modFan f fun r => { r with
        commanded := { r.commanded with step := r.rampStep }, timer := some (r.stepTimer s.clock) }
      (if r.rampStep = 0 then s.enterRunDown f else s.judgeRunning f).settleFan f
    else s

/-- The energize limit of a starting fan expires (R105). -/
def State.energizeExpiry (f : Nat) (s : State) : State :=
  match s.fan f with
  | none => s
  | some r =>
    if r.starting ∧ timerDue s.clock r.timer then (s.enterFault f .startTimeout).settleFan f else s

/-- The run-down limit expires: in RUNNING DOWN the fan enters FAULT, in FAULT the waiting FAN HOME or FAN
LOCKOUT part ends (R107, R117, R118). -/
def State.rundownExpiry (f : Nat) (s : State) : State :=
  match s.fan f with
  | none => s
  | some r =>
    if timerDue s.clock r.timer then
      match r.state with
      | .runningDown => (s.enterFault f .rundownTimeout).settleFan f
      | .fault => s.endPart f .rundownTimeout
      | _ => s
    else s

/-- The reverse dwell expires (R108). -/
def State.dwellExpiry (f : Nat) (s : State) : State :=
  match s.fan f with
  | none => s
  | some r =>
    if r.state = .reverseDwell ∧ timerDue s.clock r.timer then (s.endDwell f).settleFan f else s

/-- One whole second of running time (R110). -/
def Fan.countSecond (r : Fan) : Fan :=
  if 1 ≤ r.actual.step ∧ r.state ≠ .unreachable then
    if r.runSeconds + 1 < 60 then { r with runSeconds := r.runSeconds + 1 }
    else { r with runSeconds := 0, runMinutes := min (r.runMinutes + 1) 4294967295 }
  else r

/-! ## Adoption (R34) -/

/-- A fan is adopted from its page (R34, R111); `before` is the code of its state until then. -/
def State.adoptFan (f : Nat) (p : FanPage) (before : Nat) (s : State) : State :=
  match s.fan f with
  | none => s
  | some r =>
    let cmd : Speed := { step := min p.actual.step (min r.top r.cap), dir := p.actual.dir }
    let st : FanState := if 0 < cmd.step then .running else .stopped
    let s := s.modFan f fun r => { r with
      actual := p.actual, standstill := false, faultCode := 0, heard := false, lastSent := some p.actual,
      commanded := cmd, stepFrame := .none, reversal := false, timer := none, slotHeld := false,
      notReady := 0, cause := .none, state := st }
    ((s.journalFan f before).actOnTarget f).settleFan f

end Sys2Proof.Machine
end

