-- ==== Sys2Proof/Machine/Doors.lean ====
section
/-! DEFINITION. The door supervisor (08_escape_doors_and_cross_passages.md R134 to R147): door states, caps,
passage fans, smoke at a door and beacons. -/

namespace Sys2Proof.Machine

/-- An open state (R135). -/
def DoorState.isOpen : DoorState → Bool
  | .unlatched | .open | .heldOpen | .fault | .unreachable => true
  | .none | .closed => false

/-- A door is calling in an open state, or CLOSED with its run-on timer running (R139). -/
def Door.calling (d : Door) : Bool := d.state.isOpen || (d.state == .closed && d.runOnTimer.isSome)

/-- The cap steps that doors in an open state give a fan, each taken as the top step at most (R138). -/
def State.capsOn (s : State) (f top : Nat) : List Nat :=
  s.doors.flatMap fun o =>
    match o with
    | none => []
    | some d => if d.state.isOpen then (d.caps.filter fun e => e.1 == f).map fun e => min e.2 top else []

/-- The effective cap of a fan: the lowest such cap step, or its top step (R138). -/
def State.effectiveCap (s : State) (f top : Nat) : Nat := (s.capsOn f top).foldl min top

/-- Recompute a fan's effective cap and write it when it differs (R138). -/
def State.recomputeCap (f : Nat) (s : State) : State :=
  match s.fan f with
  | none => s
  | some r => (s.setCap f (s.effectiveCap f r.top)).handled .fans

/-- The calling doors that name a passage fan (R139). -/
def State.callers (s : State) (f : Nat) : List Door :=
  (s.doors.filterMap id).filter fun d => d.passage == some f && d.calling

/-- The request for a passage fan from every door that names it (R139). -/
def State.passageRequest (s : State) (f top : Nat) : Speed :=
  let cs := s.callers f
  { step := if cs.any (·.smoke) then top else (cs.map (·.passageStep)).foldl max 0, dir := .plus }

/-- Write the passage request of a fan when it differs from the one last written, or always when `force`
(R139). -/
def State.writePassage (force : Bool) (f : Nat) (s : State) : State :=
  match s.fan f with
  | none => s
  | some r =>
    let v := s.passageRequest f r.top
    if !force && s.passageWritten.getD f none == some v then s
    else (State.doorWrite f v { s with passageWritten := s.passageWritten.set f (some v) }).handled .fans

/-- The same for the passage fan a door names, if any. -/
def State.writePassageOf (d : Nat) (s : State) : State :=
  match (s.door d).bind (·.passage) with
  | none => s
  | some f => s.writePassage false f

/-- Recompute the cap of every fan in a door's cap list (R137, R138). That this goes in the order of the list is the
model's choice (log 70). -/
def State.recomputeCapsOf (d : Nat) (s : State) : State :=
  match s.door d with
  | none => s
  | some r => forEach (r.caps.map (·.1)) State.recomputeCap s

/-- Judge the smoke mark of a door (R141). -/
def State.judgeSmoke (d : Nat) (s : State) : State :=
  match s.door d with
  | none => s
  | some r =>
    match r.zone with
    | none => s
    | some z =>
      if r.state.isOpen ∧ (s.zone z).latch ∧ ¬r.smoke then
        ((s.modDoor d fun r => { r with smoke := true }).journal .smokeAtDoor d z (optCode r.passage)).writePassageOf d
      else s

/-- The run-on of a door has ended: it stops calling and its smoke mark is cleared (R140). -/
def State.endRunOn (d : Nat) (s : State) : State := s.modDoor d fun r => { r with runOnTimer := none, smoke := false }

/-- A door's opening (R137). -/
def State.doorOpening (d : Nat) (s : State) : State :=
  (((s.modDoor d fun r => { r with runOnTimer := none }).recomputeCapsOf d).judgeSmoke d).writePassageOf d

/-- A door's closing (R137); a run-on time of 0 expires as soon as it starts (R140). That the request such an expiry
brings about is written after the caps, in R137's third step, is the model's choice (log 66). -/
def State.doorClosing (d : Nat) (s : State) : State :=
  match s.door d with
  | none => s
  | some r =>
    let s :=
      if r.runOn = 0 then s.endRunOn d
      else s.modDoor d fun r => { r with runOnTimer := some { start := s.clock, dur := 1000 * r.runOn } }
    (s.recomputeCapsOf d).writePassageOf d

/-- The opening or closing that a change of door state is, if any (R137). -/
def State.doorMoved (d : Nat) (old new : DoorState) (s : State) : State :=
  if !old.isOpen && new.isOpen then s.doorOpening d
  else if old.isOpen && new == .closed then s.doorClosing d
  else s

/-- The door state a reported state gives (R135). That a HELD OPEN door which has gone to UNLATCHED or FAULT and reports
OPEN again is OPEN, though it has not closed between, is deduced (R136, log 110). -/
def doorStateOf (old : DoorState) : Reported → DoorState
  | .closed => .closed
  | .unlatched => .unlatched
  | .open => if old = .heldOpen then .heldOpen else .open
  | .fault => .fault

/-- The hold timer after a change of door state (R136): it starts anew whenever the door becomes OPEN from another state
than OPEN, without a closing between too (log 110). -/
def holdAfter (now : Clock) (r : Door) (new : DoorState) : Option Timer :=
  if new = .open then
    if r.state = .open then r.holdTimer else some { start := now, dur := 1000 * r.holdLimit }
  else none

/-- A reported state is taken for a door, from a heartbeat or from its page (R136). -/
def State.takeReported (d : Nat) (rep : Reported) (fromPage : Bool) (s : State) : State :=
  match s.door d with
  | none => s
  | some r =>
    if !fromPage && r.reported == rep && r.state != .unreachable then s
    else
      let new := doorStateOf r.state rep
      let s := s.modDoor d fun x => { x with reported := rep, state := new, holdTimer := holdAfter s.clock r new }
      if new = r.state then s
      else (s.journal .doorState d r.state.code new.code).doorMoved d r.state new

/-- The hold timer of a door expires (R136). -/
def State.holdExpired (d : Nat) (s : State) : State :=
  (s.modDoor d fun r => { r with state := .heldOpen, holdTimer := none }).journal .doorHeld d 0 0

/-- The run-on timer of a door expires (R140). -/
def State.runOnExpired (d : Nat) (s : State) : State := (s.endRunOn d).writePassageOf d

/-! ## Beacons (R145 to R147) -/

/-- The wanted mode of a door's beacon (R145). -/
def wantedMode (p : Planner) (d : Door) : BeaconMode :=
  match d.source with
  | .manual => d.manualMode
  | .auto =>
    match p.regime with
    | .off => .dark
    | .normal => .dark
    | .fire => if d.zone.any fun z => p.excluded.contains z then .alarm else .guide

/-- The result of a DOOR SIGNAL as things stand (R147, R183). -/
def signalBody (p : Planner) (d : Nat) (r : Door) : List Byte :=
  [byte d, byte r.source.code, byte (wantedMode p r).code, byte ((r.confirmed.map BeaconMode.code).getD 0xFF)]

/-- The active signal order of a door ends (R147). -/
def State.endSignal (d : Nat) (out : OrderOutcome) (s : State) : State :=
  match s.door d with
  | none => s
  | some r =>
    match r.signal with
    | none => s
    | some slot => (s.modDoor d fun r => { r with signal := none }).complete slot out false 1 (signalBody s.plan d r)

/-- A door whose station has gone down (R142). -/
def State.doorLost (d : Nat) (s : State) : State :=
  match s.door d with
  | none => s
  | some r =>
    if r.state = .unreachable then s
    else
      let s := s.modDoor d fun r => { r with state := .unreachable, holdTimer := none }
      let s := (s.journal .doorState d r.state.code DoorState.unreachable.code).doorMoved d r.state .unreachable
      (s.modDoor d fun r => { r with beacon := .none, confirmed := none }).endSignal d .unreachable

/-- Compare a beacon's wanted mode with the confirmed mode and offer a DOOR BEACON when they differ (R146). A
door that is UNREACHABLE waits for its return (R142). That a frame refused FULL is offered again before the next opening
too, when the beacon is compared again, is the model's choice (log 100). -/
def State.compareBeacon (d : Nat) (s : State) : State :=
  match s.door d with
  | none => s
  | some r =>
    let want := wantedMode s.plan r
    if r.state = .unreachable ∨ r.beacon ≠ .none ∨ r.confirmed = some want then s
    else
      match s.offer r.station
        { kind := .doorBeacon, payload := [byte r.index, byte want.code], origin := .beacon d want, held := 0 } with
      | (.accepted, s) => s.modDoor d fun r => { r with beacon := .queued }
      | (.unreachable, s) => s.doorLost d
      | (_, s) => s

/-- The wanted mode of every numbered door is worked out again (R145). That the frames are offered by ascending door
number is the model's choice (log 71). -/
def State.compareBeacons (s : State) : State := forEach (List.range 32) State.compareBeacon s

/-- The ring controller has placed the door's DOOR BEACON in a train (R146). -/
def State.beaconPlaced (d : Nat) (s : State) : State := s.modDoor d fun r => { r with beacon := .outstanding }

/-- A DOOR BEACON of a door that carried `mode` has ended (R146, R147). That the mode of a BEACON ACK, which completes a
signal order when it equals the wanted mode, is the mode of the frame it answers is the model's choice (log 68). -/
def State.beaconEnded (d : Nat) (mode : BeaconMode) (e : FrameEnding) (s : State) : State :=
  let s := s.modDoor d fun r => { r with
    beacon := .none, confirmed := match e with | .reply _ => some mode | .noDelivery => none | .noAnswer => none }
  match s.door d with
  | none => s
  | some r =>
    let s :=
      match e with
      | .reply _ => if mode = wantedMode s.plan r then s.endSignal d .ok else s
      | .noDelivery => s.endSignal d .noDelivery
      | .noAnswer => s.endSignal d .noAnswer
    s.compareBeacon d

/-- The smoke latch of a zone has set: the smoke marks of its doors are judged (R93, R141). That this goes by ascending
door number is the model's choice (log 69). -/
def State.smokeAtDoors (z : Nat) (s : State) : State :=
  forEach (List.range 32) (fun d s => if (s.door d).any fun r => r.zone == some z then s.judgeSmoke d else s) s

/-- A door's zone is set by ZONE MAP: its smoke mark and its beacon are judged (R83, R141, R145). That
the smoke mark comes first, with its record, its passage request and their FAN STEP, and then the DOOR BEACON, is the
model's choice (log 109). -/
def State.setDoorZone (d : Nat) (z : Option Nat) (s : State) : State :=
  match s.door d with
  | none => s
  | some r =>
    if r.zone = z then s
    else ((s.modDoor d fun r => { r with zone := z }).judgeSmoke d).compareBeacon d

end Sys2Proof.Machine
end

