-- ==== Sys2Proof/Machine/Planner.lean ====
section
/-! DEFINITION. The ventilation planner (09_ventilation_regimes.md R149 to R162). -/

namespace Sys2Proof.Machine

/-- The wanted direction: the normal direction in NORMAL, the smoke direction in FIRE (R153). -/
def Planner.wantedDir (p : Planner) : Dir := if p.regime = .fire then p.smokeDir else p.normalDir

/-- A fan is a candidate (R153). -/
def Fan.candidate (p : Planner) (r : Fan) : Bool :=
  r.kind == .jet && r.source == .auto && r.state != .fault && r.state != .lockedOut && r.state != .unreachable &&
    !(r.zone.any fun z => p.excluded.contains z) && decide (0 < r.cap) &&
    (r.reversible || r.commanded.dir == p.wantedDir)

/-- The class of a candidate for the wanted direction (R154). -/
def Fan.planClass (dir : Dir) (r : Fan) : Nat :=
  if r.commanded.step = 0 then 2 else if r.commanded.dir = dir then 1 else 3

/-- The order of candidates: class, then least run minutes, then lowest fan number (R154). -/
def planBefore (dir : Dir) (a b : Nat × Fan) : Bool :=
  let ca := a.2.planClass dir
  let cb := b.2.planClass dir
  decide (ca < cb ∨ (ca = cb ∧ (a.2.runMinutes < b.2.runMinutes ∨
    (a.2.runMinutes = b.2.runMinutes ∧ a.1 ≤ b.1))))

/-- Put an element before the first one that it precedes. -/
def insertBy {α : Type} (le : α → α → Bool) (x : α) : List α → List α
  | [] => [x]
  | y :: ys => if le x y then x :: y :: ys else y :: insertBy le x ys

/-- A list in the order of `le`. -/
def sortBy {α : Type} (le : α → α → Bool) : List α → List α
  | [] => []
  | x :: xs => insertBy le x (sortBy le xs)

/-- The numbered fans with their numbers. -/
def State.numberedFans (s : State) : List (Nat × Fan) :=
  (List.range 48).filterMap fun f => (s.fan f).map fun r => (f, r)

/-- The candidates in the order in which they are picked (R153, R154). -/
def State.candidates (s : State) : List (Nat × Fan) :=
  sortBy (planBefore s.plan.wantedDir) (s.numberedFans.filter fun x => x.2.candidate s.plan)

/-- How many fans are candidates as the fan records stand (R153, R163). In OFF there is no wanted direction by which a fan
could be one; that 0 is shown there is the model's choice (log 27). -/
def State.candidatesNow (s : State) : Nat := if s.plan.regime = .off then 0 else s.candidates.length

/-- The planner writes a fan's requested values, with its planner start time (R154). -/
def State.planWrite (f : Nat) (v : Speed) (s : State) : State :=
  match s.fan f with
  | none => s
  | some r =>
    if r.kind = .jet ∧ r.source = .auto ∧ r.state ≠ .lockedOut then
      (s.modFan f fun r => { r with
        plannerStart :=
          if v.step = 0 then none
          else if r.plannerStart = none ∨ v.dir ≠ r.requested.dir then some s.clock
          else r.plannerStart }).plannerWrite f v |>.handled .fans
    else s

/-- A fan kept by the minimum run in NORMAL (R157). -/
def keptByMinimumRun (now : Clock) (p : Planner) (picked : List Nat) (x : Nat × Fan) : Bool :=
  x.2.candidate p && !picked.contains x.1 && decide (0 < x.2.requested.step) &&
    x.2.plannerStart.any fun t => decide (elapsed now t < 1000 * p.minRun)

/-- What a selection writes to a fan: nothing for one that is not an AUTO jet fan or is kept (R154). -/
def selectionWrite (p : Planner) (picked kept : List Nat) (x : Nat × Fan) : Option (Nat × Speed) :=
  if x.2.kind = .jet ∧ x.2.source = .auto then
    if picked.contains x.1 then
      some (x.1, { step := if p.regime = .fire then x.2.top else p.normalStep, dir := p.wantedDir })
    else if kept.contains x.1 then none
    else some (x.1, { step := 0, dir := x.2.requested.dir })
  else none

/-- A selection of `count` candidates: every write is worked out first, then made (R150, R154). That the writes are made by
ascending fan number is the model's choice (R124, log 102). -/
def State.selection (count : Nat) (s : State) : State :=
  let cands := s.candidates
  let picked := (cands.take count).map (·.1)
  let kept :=
    if s.plan.regime = .normal then
      (s.numberedFans.filter (keptByMinimumRun s.clock s.plan picked)).map (·.1)
    else []
  let writes := s.numberedFans.filterMap (selectionWrite s.plan picked kept)
  let s := s.modPlan fun p => { p with picked := picked, candidates := cands.length, kept := kept.length }
  writes.foldl (fun s w => s.planWrite w.1 w.2) s

/-- A NORMAL evaluation: the plan timer restarts, and unless SMOKE HOLD is set the stage's count is selected
(R156 to R158). -/
def State.evaluate (s : State) : State :=
  if s.plan.regime = .normal then
    let s := s.modPlan fun p => { p with planTimer := some { start := s.clock, dur := 1000 * p.planInterval } }
    if s.plan.smokeHold then s
    else s.selection (min (s.plan.stages.getD s.plan.tunnel 0) s.candidates.length)
  else s

/-- A selection in FIRE: the fire count is limited to the candidates, and the limit is stored (R161). -/
def State.fireSelection (s : State) : State :=
  let s := s.modPlan fun p => { p with fireCount := min p.fireCount s.candidates.length }
  s.selection s.plan.fireCount

/-! ## Measurement and control step (R160, R161) -/

/-- A zone's AIRV value when it may be used (R160). -/
def State.airv? (s : State) (z : Nat) : Option Int :=
  let k := (s.zone z).airv
  if k.vstate = .present ∨ k.vstate = .held then some k.value else none

/-- The zone upwind of the fire, when it lies within 0 to 15 (R160). -/
def Planner.upwind (p : Planner) : Option Nat :=
  match p.smokeDir with
  | .plus => if p.fireZone = 0 then none else some (p.fireZone - 1)
  | .minus => if p.fireZone < 15 then some (p.fireZone + 1) else none

/-- The measured air velocity and its source (R160). -/
def State.measure (s : State) : Option Int × Measured :=
  match s.plan.upwind.bind s.airv? with
  | some v => (some v, .upstream)
  | none =>
    let vs := s.plan.configured.filterMap s.airv?
    if vs = [] then (none, .none) else (some ((vs.foldl (· + ·) 0).tdiv vs.length), .mean)

/-- The settling hold (R161). -/
def State.settlingHold (s : State) : Bool :=
  s.plan.picked.any fun f => (s.fan f).any fun r =>
    r.state == .queued || r.state == .energizing || r.state == .ramping || r.state == .runningDown ||
      r.state == .reverseDwell

/-- The fire count after a control step that found `w` (R161). -/
def fireCountAfter (p : Planner) (settling : Bool) (w : Int) : Nat :=
  if w < (p.target : Int) - p.band then (if settling then p.fireCount else p.fireCount + 1)
  else if (p.target : Int) + p.band < w then (if p.minCount < p.fireCount then p.fireCount - 1 else p.fireCount)
  else p.fireCount

/-- The control step (R160, R161). That the image goes on showing the w of this step when the smoke direction is reversed
before the next one is the model's choice (R163, log 93). -/
def State.controlStep (s : State) : State :=
  let settling := s.settlingHold
  match s.measure with
  | (none, src) => s.modPlan fun p => { p with measured := 0, w := 0, source := src, settling := settling }
  | (some v, src) =>
    let w : Int := if s.plan.smokeDir = .plus then v else -v
    s.modPlan fun p => { p with
      measured := v, w := w, source := src, settling := settling, fireCount := fireCountAfter p settling w }

/-! ## What the neighbours tell (R150, R158) -/

/-- The tunnel level has changed (R92, R150). It stands in the regime image before the planner acts on a rise (R93). -/
def State.tunnelTold (level : Nat) (s : State) : State :=
  let old := s.plan.tunnel
  let s := (s.modPlan fun p => { p with tunnel := level }).handled .planner
  if old < level then s.evaluate else s

/-- SMOKE HOLD follows the smoke count in NORMAL; its clearing starts an evaluation (R158). -/
def State.judgeSmokeHold (s : State) : State :=
  if s.plan.regime = .normal then
    let held := decide (0 < s.plan.smokeCount)
    let was := s.plan.smokeHold
    let s := s.modPlan fun p => { p with smokeHold := held }
    if was && !held then s.evaluate else s
  else s

/-- A smoke latch has set or cleared (R93, R150). -/
def State.smokeTold (set : Bool) (s : State) : State :=
  (s.modPlan fun p => { p with smokeCount := if set then p.smokeCount + 1 else p.smokeCount - 1 }).judgeSmokeHold

/-- A zone has become or stopped being configured (R84, R150). -/
def State.configuredTold (z : Nat) (on : Bool) (s : State) : State :=
  s.modPlan fun p => { p with
    configured := if on then insertBy (fun a b => decide (a ≤ b)) z (p.configured.erase z) else p.configured.erase z }

/-- A FAN RELEASE has made a jet fan AUTO (R115, R150, R159). -/
def State.jetReleased (f : Nat) (s : State) : State :=
  match s.plan.regime with
  | .off => s
  | .normal => s.evaluate
  | .fire =>
    match s.fan f with
    | none => s
    | some r =>
      (if r.zone.any fun z => s.plan.excluded.contains z then
        s.planWrite f { step := 0, dir := r.requested.dir } else s).fireSelection

/-- A fan's zone is set by ZONE MAP, together with the planner's write for an excluded zone (R83, R159). -/
def State.setFanZone (f : Nat) (z : Option Nat) (s : State) : State :=
  match s.fan f with
  | none => s
  | some r =>
    if r.zone = z then s
    else
      let s := s.modFan f fun r => { r with zone := z }
      if s.plan.regime = .fire ∧ z.any fun z => s.plan.excluded.contains z then
        s.planWrite f { step := 0, dir := r.requested.dir }
      else s

/-! ## Changes of regime (R159, R162) -/

/-- The excluded zones of a fire: the fire zone and the one downstream when it lies within 0 to 15 (R159). -/
def excludedZones (f : Nat) : Dir → List Nat
  | .plus => if f < 15 then [f, f + 1] else [f]
  | .minus => if f = 0 then [f] else [f, f - 1]

/-- The planner journals a change of regime, and every entry to FIRE, and tells the door supervisor (R162). -/
def State.regimeTold (before : Regime) (s : State) : State :=
  let after := s.plan.regime
  let s :=
    if before = after ∧ after ≠ .fire then s
    else s.journal .regime (if after = .fire then s.plan.fireZone else 0) before.code after.code
  s.compareBeacons.handled .doors

/-- The regime OFF (R155, R162). -/
def Planner.toOff (p : Planner) : Planner :=
  { p with
    regime := .off, excluded := [], fireCount := 0, planTimer := none, controlTimer := none, picked := [],
    smokeHold := false, candidates := 0, kept := 0 }

/-- Apply a regime (R162). The fire zone and direction have been stored before FIRE is applied. -/
def State.applyRegime (r : Regime) (s : State) : State :=
  let before := s.plan.regime
  match r with
  | .off => (s.modPlan Planner.toOff).regimeTold before
  | .normal =>
    let s := s.modPlan fun p => { p with
      regime := .normal, excluded := [], fireCount := 0, controlTimer := none,
      smokeHold := decide (0 < p.smokeCount) }
    s.evaluate.regimeTold before
  | .fire =>
    let s := s.modPlan fun p => { p with
      regime := .fire, excluded := excludedZones p.fireZone p.smokeDir, fireCount := p.startCount,
      controlTimer := some { start := s.clock, dur := 1000 * p.period }, planTimer := none, smokeHold := false }
    s.fireSelection.regimeTold before

/-- The start of an ENROL makes the regime OFF; the last measurement is forgotten (R25, R162). -/
def State.enrolRegime (s : State) : State :=
  (s.applyRegime .off).modPlan fun p => { p with measured := 0, source := .none, w := 0 }

end Sys2Proof.Machine
end

