-- ==== Sys2Proof/Machine/Zones.lean ====
section
/-! DEFINITION. The zone evaluator (05_zones_and_demand_levels.md R80 to R95): aggregation, levels with
hysteresis, the smoke latch, and the moves of channels between zones. -/

namespace Sys2Proof.Machine

def Zone.kind (z : Zone) : ChKind → ZoneKind
  | .co => z.co | .no2 => z.no2 | .vis => z.vis | .airv => z.airv

def Zone.setKind (k : ChKind) (v : ZoneKind) (z : Zone) : Zone :=
  match k with
  | .co => { z with co := v }
  | .no2 => { z with no2 := v }
  | .vis => { z with vis := v }
  | .airv => { z with airv := v }

/-- A zone is configured while at least one channel of any kind is among its members (R80). -/
def Zone.configured (z : Zone) : Bool :=
  !(z.co.members.isEmpty && z.no2.members.isEmpty && z.vis.members.isEmpty && z.airv.members.isEmpty)

/-- A channel is usable (R85). -/
def Channel.usable (c : Channel) : Bool := c.quality == .good || (c.quality == .suspect && !c.skip)

/-- The filtered values of the usable members (R85). -/
def State.usableValues (s : State) (members : List Nat) : List Int :=
  members.filterMap fun c => (s.channel c).bind fun r => if r.usable then some r.value else none

/-- The aggregate of usable values: the largest for a pollutant, the mean truncated toward zero for AIRV
(R87). -/
def aggregate (k : ChKind) : List Int → Int
  | [] => 0
  | v :: vs =>
    match k with
    | .airv => ((v :: vs).foldl (· + ·) 0).tdiv (v :: vs).length
    | .co => vs.foldl max v
    | .no2 => vs.foldl max v
    | .vis => vs.foldl max v

/-- The kind of a zone aggregated anew (R86). -/
def State.aggregated (s : State) (hold : Nat) (k : ChKind) (z : ZoneKind) : ZoneKind :=
  match s.usableValues z.members with
  | [] =>
    if z.vstate = .present then
      if hold = 0 then { z with vstate := .absent } else { z with vstate := .held, heldSince := some s.clock }
    else z
  | v :: vs => { z with vstate := .present, heldSince := none, value := aggregate k (v :: vs) }

/-- The state or the value of a kind differs (R86). -/
def ZoneKind.differs (a b : ZoneKind) : Bool := a.vstate != b.vstate || a.value != b.value

/-! ## Grading (R90 to R93) -/

/-- The threshold T1 to T4 of a level; T0 is not used. -/
def Thresholds.at (t : Thresholds) : Nat → Nat
  | 0 => 0 | 1 => t.t1 | 2 => t.t2 | 3 => t.t3 | _ => t.t4

/-- The largest level whose threshold the value reaches (R90 step 1). -/
def Thresholds.reached (t : Thresholds) (v : Int) : Nat :=
  if (t.t4 : Int) ≤ v then 4 else if (t.t3 : Int) ≤ v then 3 else if (t.t2 : Int) ≤ v then 2
  else if (t.t1 : Int) ≤ v then 1 else 0

/-- The fall of a level while the value lies below its threshold less the hysteresis (R90 step 2). -/
def Thresholds.fall (t : Thresholds) (v : Int) : Nat → Nat
  | 0 => 0
  | l + 1 => if v < (t.at (l + 1) : Int) - t.h then t.fall v l else l + 1

/-- A grading (R90). -/
def Thresholds.grade (t : Thresholds) (level : Nat) (v : Int) : Nat := t.fall v (max level (t.reached v))

/-- The kind level after a grading (R90, R91). -/
def gradedLevel (t : Thresholds) (fallback : Nat) (k : ZoneKind) : Nat :=
  match k.vstate with
  | .none => 0
  | .absent => fallback
  | .present => t.grade k.level k.value
  | .held => t.grade k.level k.value

/-- The smoke latch judged on the VIS kind (R93). -/
def Zone.judgedLatch (z : Zone) : Bool :=
  match z.vis.vstate with
  | .none => false
  | .absent => z.latch
  | .present | .held =>
    if (z.smoke : Int) ≤ z.vis.value then true
    else if z.vis.value < (z.smoke : Int) - z.visT.h then false
    else z.latch

/-- A kind of a zone is graded; with VIS the latch is judged (R90, R93). AIRV is not graded. -/
def Zone.gradeKind (k : ChKind) (z : Zone) : Zone :=
  match k with
  | .co => { z with co := { z.co with level := gradedLevel z.coT z.fallback z.co } }
  | .no2 => { z with no2 := { z.no2 with level := gradedLevel z.no2T z.fallback z.no2 } }
  | .vis =>
    { z with vis := { z.vis with level := gradedLevel z.visT z.fallback z.vis }, latch := z.judgedLatch }
  | .airv => z

/-- The zone level: the largest of the CO, NO2 and VIS levels (R92). -/
def Zone.worked (z : Zone) : Zone := { z with level := max z.co.level (max z.no2.level z.vis.level) }

/-- The tunnel level: the largest zone level among configured zones (R92). -/
def tunnelLevelOf (zones : List Zone) : Nat :=
  zones.foldl (fun m z => if z.configured then max m z.level else m) 0

/-- ZONE LEVEL of a zone, when it changed (R92). -/
def State.journalZoneLevel (z before : Nat) (s : State) : State :=
  let after := (s.zone z).level
  if before = after then s else s.journal .zoneLevel z before after

/-- SMOKE ON or SMOKE OFF of a zone, when its latch changed (R93). -/
def State.journalSmoke (z : Nat) (before : Bool) (s : State) : State :=
  let r := s.zone z
  if before = r.latch then s
  else s.journal (if r.latch then .smokeOn else .smokeOff) z (r.vis.value % 0x10000).toNat r.smoke

/-- The planner and the door supervisor are told of a changed latch (R93). -/
def State.tellSmoke (z : Nat) (before : Bool) (s : State) : State :=
  let now := (s.zone z).latch
  if before = now then s
  else
    let s := s.smokeTold now
    let s := s.handled .planner
    if now then (s.smokeAtDoors z).handled .doors else s

/-- One grading of kinds of some zones: first all the state, then the journal records, then the planner and
the door supervisor (R90 to R93). That several zones are graded as one, the records of their levels before the tunnel's
and those of their latches after it, each in the order of the zones, is the model's choice (log 60), and so is that the
planner and the door supervisor are told of the latches in that order, the old zone's first (log 79). One grading makes one
update of the zone image (R93, R172). -/
def State.regradeAs (force : Force) (kinds : List (Nat × ChKind)) (s : State) : State :=
  if kinds = [] then s
  else
    let zs := (kinds.map (·.1)).eraseDups
    let before := s
    let s := kinds.foldl (fun s x => s.modZone x.1 (Zone.gradeKind x.2)) s
    let s := forEach zs (fun z s => s.modZone z Zone.worked) s
    let s : State := { s with tunnelLevel := tunnelLevelOf s.zones }
    let s := s.handledAs force .zones
    let s := forEach zs (fun z s => s.journalZoneLevel z (before.zone z).level) s
    let s := if before.tunnelLevel = s.tunnelLevel then s
      else s.journal .zoneLevel 16 before.tunnelLevel s.tunnelLevel
    let s := forEach zs (fun z s => s.journalSmoke z (before.zone z).latch) s
    let s := if before.tunnelLevel = s.tunnelLevel then s else (s.tunnelTold s.tunnelLevel).handled .planner
    forEach zs (fun z s => s.tellSmoke z (before.zone z).latch) s

/-- A grading whose update of the zone image writes the changed entries only. -/
def State.regrade (kinds : List (Nat × ChKind)) (s : State) : State := s.regradeAs .none kinds

/-- A report of a channel: its kind in its zone is aggregated, and graded when its state or value changed
(R73, R86). A channel without a zone is dropped. -/
def State.reportChannel (c : Nat) (s : State) : State :=
  match s.channel c with
  | none => s
  | some r =>
    match r.zone with
    | none => s
    | some z =>
      let old := (s.zone z).kind r.kind
      let new := s.aggregated (s.zone z).hold r.kind old
      if new.differs old then (s.modZone z (Zone.setKind r.kind new)).regrade [(z, r.kind)] else s

/-! ## Mapping (R84) -/

/-- A kind of a zone loses a member (R84 step 1). -/
def State.withoutMember (s : State) (hold c : Nat) (k : ChKind) (z : ZoneKind) : ZoneKind :=
  let members := z.members.erase c
  if members = [] then { ZoneKind.reset with level := z.level }
  else s.aggregated hold k { z with members := members }

/-- The level that a kind takes when it becomes ABSENT: the fallback level, and 0 for AIRV, which is not graded
(R91). -/
def absentLevel (fallback : Nat) : ChKind → Nat
  | .co | .no2 | .vis => fallback
  | .airv => 0

/-- A kind of a zone gains a member, in channel-number order (R84 step 3). A kind that was NONE first becomes ABSENT
and takes the fallback level, from which it is graded when it becomes PRESENT at once (R90, R91). -/
def State.withMember (s : State) (hold fallback c : Nat) (k : ChKind) (z : ZoneKind) : ZoneKind :=
  let members := insertBy (fun a b => decide (a ≤ b)) c z.members
  let z :=
    if z.vstate = .none then
      { z with vstate := .absent, value := 0, heldSince := none, level := absentLevel fallback k }
    else z
  s.aggregated hold k { z with members := members }

/-- Store a kind of a zone and say whether it must be graded (R84 step 4). -/
def State.putKind (z : Nat) (k : ChKind) (new : ZoneKind) (s : State) : List (Nat × ChKind) × State :=
  (if new.differs ((s.zone z).kind k) then [(z, k)] else [], s.modZone z (Zone.setKind k new))

/-- The planner is told when a zone becomes or stops being configured (R84). -/
def State.tellConfigured (before : State) (z : Nat) (s : State) : State :=
  let now := (s.zone z).configured
  if (before.zone z).configured = now then s else s.configuredTold z now

/-- A channel moves from its zone to another, or to none (R84). -/
def State.mapChannel (c : Nat) (dest : Option Nat) (s : State) : State :=
  match s.channel c with
  | none => s
  | some r =>
    if r.zone = dest then s
    else
      let before := s
      let (g1, s) :=
        match r.zone with
        | none => ([], s)
        | some z => s.putKind z r.kind (s.withoutMember (s.zone z).hold c r.kind ((s.zone z).kind r.kind))
      let s := s.modChannel c fun x => { x with zone := dest }
      let (g2, s) :=
        match dest with
        | none => ([], s)
        | some z =>
          s.putKind z r.kind (s.withMember (s.zone z).hold (s.zone z).fallback c r.kind ((s.zone z).kind r.kind))
      let zs := r.zone.toList ++ dest.toList
      (forEach zs (State.tellConfigured before) s).regrade (g1 ++ g2)

/-! ## Hold expiry, settings, ENROL (R82, R88, R89, R95) -/

/-- The hold time of a HELD kind has run out (R88). -/
def ZoneKind.holdDue (now : Clock) (hold : Nat) (k : ZoneKind) : Bool :=
  k.vstate == .held && k.heldSince.any fun t => decide (1000 * hold ≤ elapsed now t)

/-- A HELD kind becomes ABSENT at its hold expiry (R88). -/
def ZoneKind.expire (k : ZoneKind) : ZoneKind := { k with vstate := .absent, heldSince := none }

/-- The hold expiry of a kind of a zone (R88). -/
def State.zoneHoldExpired (z : Nat) (k : ChKind) (s : State) : State :=
  if ((s.zone z).kind k).holdDue s.clock (s.zone z).hold then
    (s.modZone z fun r => r.setKind k (r.kind k).expire).regrade [(z, k)]
  else s

/-- A changed hold time acts on a HELD kind (R89). -/
def Zone.rehold (now : Clock) (k : ChKind) (z : Zone) : Zone :=
  if (z.kind k).holdDue now z.hold then z.setKind k (z.kind k).expire else z

/-- SET ZONE is applied whole to the zone, whose settings have been stored; `held` is the hold time before
(R95). -/
def State.applyZone (z : Nat) (held : Nat) (s : State) : State :=
  (s.modZone z fun r =>
    if r.hold = held then r
    else (((r.rehold s.clock .co).rehold s.clock .no2).rehold s.clock .vis).rehold s.clock .airv).regrade
      [(z, .co), (z, .no2), (z, .vis)]

/-- A kind that loses every member at the start of an ENROL (R82). -/
def ZoneKind.emptied (k : ZoneKind) : ZoneKind := { ZoneKind.reset with level := k.level }

/-- The start of an ENROL empties every zone (R82) and rewrites the whole zone table (R97). The order of the records among the zones is that of one grading, by
ascending zone: the model's choice (log 58). -/
def State.emptyZones (s : State) : State :=
  let before := s
  let s : State := { s with zones := s.zones.map fun z => { z with
    co := z.co.emptied, no2 := z.no2.emptied, vis := z.vis.emptied, airv := z.airv.emptied } }
  (forEach (List.range 16) (State.tellConfigured before) s).regradeAs .whole
    ((List.range 16).flatMap fun z => [(z, ChKind.co), (z, ChKind.no2), (z, ChKind.vis)])

end Sys2Proof.Machine
end

