-- ==== Sys2Proof/Machine/Channels.lean ====
section
/-! DEFINITION. The channel processor (04_gas_and_air_channels.md R60 to R78): conversion, judgement, filter,
quality, samples and zero capture. -/

namespace Sys2Proof.Machine

/-- The range of a kind (R64). -/
def rangeOf : ChKind → Int × Int
  | .co => (0, 5000) | .no2 => (0, 2000) | .vis => (0, 500) | .airv => (-2000, 2000)

/-- The unclamped value of a raw code: d = r - z, p = d * g, p / 4096 rounded toward minus infinity (R63). -/
def Channel.unclamped (c : Channel) (raw : Nat) : Int := (((raw : Int) - c.zero) * c.gain).fdiv 4096

/-- The sample value (R64). -/
def Channel.sampleValue (c : Channel) (raw : Nat) : Int :=
  clampInt (rangeOf c.kind).1 (rangeOf c.kind).2 (c.unclamped raw)

/-- The clamp changed the value (R64). -/
def Channel.clampedSample (c : Channel) (raw : Nat) : Bool := c.sampleValue raw != c.unclamped raw

/-- A sample is suspect (R65). -/
def Channel.suspects (c : Channel) (raw : Nat) (marked : Bool) : Bool :=
  marked || (decide (0 < c.under) && decide (raw < c.under)) || raw == 4095

/-- The accumulator after a sample value is fed: seeded, or moved by the distance over 2^s, rounded toward
minus infinity (R67, R68). -/
def Channel.fedAcc (c : Channel) (e : Int) : Int :=
  if c.seedDue then e * 256 else c.acc + (e * 256 - c.acc).fdiv (2 ^ c.shift)

/-- A sample is fed to the filter (R66 to R69). -/
def Channel.feed (now : Clock) (raw : Nat) (c : Channel) : Channel :=
  let a := c.fedAcc (c.sampleValue raw)
  { c with
    acc := a, value := (a + 128).fdiv 256, seedDue := false, clamped := c.clampedSample raw, lastFeed := now,
    armed := true }

/-- A sample is judged, then fed or skipped, and the quality takes its new value (R65, R66). -/
def Channel.take (now : Clock) (raw : Nat) (marked : Bool) (c : Channel) : Channel :=
  let c := { c with lastRaw := raw }
  if c.suspects raw marked then
    if c.skip then { c with quality := .suspect } else { c.feed now raw with quality := .suspect }
  else { c.feed now raw with quality := .good }

/-- A sample gathered by a capture (R77). -/
def Capture.gather (raw : Nat) (k : Capture) : Capture :=
  { k with count := k.count + 1, sum := k.sum + raw, lowest := min k.lowest raw, highest := max k.highest raw }

/-- CHANNEL QUALITY is journalled for a change into or out of GOOD (R72). -/
def State.journalQuality (c : Nat) (before : Quality) (s : State) : State :=
  match s.channel c with
  | none => s
  | some r =>
    if before ≠ r.quality ∧ (before = .good ∨ r.quality = .good) then
      s.journal .channelQuality c before.code r.quality.code
    else s

/-- A sample that is not suspect is gathered by the capture in progress; the eighth completes it (R77). -/
def State.gatherSample (c raw : Nat) (s : State) : State :=
  match s.channel c with
  | none => s
  | some r =>
    match r.capture with
    | none => s
    | some k =>
      let k := k.gather raw
      if 8 ≤ k.count then
        let mean := k.sum / 8
        (s.modChannel c fun r => { r with zero := mean, seedDue := true, capture := none }).complete k.slot .ok false
          1 (le16 mean ++ le16 r.zero ++ le16 k.lowest ++ le16 k.highest)
      else s.modChannel c fun r => { r with capture := some k }

/-- One sample of a numbered channel, handled to the end (R62). -/
def State.takeSample (c raw : Nat) (marked : Bool) (s : State) : State :=
  match s.channel c with
  | none => s
  | some r =>
    let raw := min raw 4095
    let s := s.modChannel c (Channel.take s.clock raw marked)
    let s := if r.suspects raw marked then s else s.gatherSample c raw
    let s := s.journalQuality c r.quality
    match s.channel c with
    | none => s
    | some n => if n.value ≠ r.value ∨ n.quality ≠ r.quality then s.reportChannel c else s

/-- The stale expiry of a channel has been reached (R70). -/
def Channel.staleDue (now : Clock) (c : Channel) : Bool :=
  c.armed && (c.quality == .waiting || c.quality == .good || c.quality == .suspect) &&
    decide (1000 * c.stale ≤ elapsed now c.lastFeed)

/-- A channel becomes STALE (R70). That its CHANNEL QUALITY record (R72) comes before the records that its report causes
(R73) is the model's choice (log 98). -/
def State.becomeStale (c : Nat) (s : State) : State :=
  match s.channel c with
  | none => s
  | some r =>
    ((s.modChannel c fun r => { r with quality := .stale, seedDue := true, armed := false }).journalQuality c
      r.quality).reportChannel c

/-- A CAPTURE ZERO in progress on a channel ends without a new zero (R78). -/
def State.endCapture (c : Nat) (out : OrderOutcome) (s : State) : State :=
  match (s.channel c).bind (·.capture) with
  | none => s
  | some k => (s.modChannel c fun r => { r with capture := none }).completeBare k.slot out

/-- A channel whose station has gone down becomes LOST (R71). That its CHANNEL QUALITY record (R72) comes before the
records that its report causes (R73) is the model's choice (log 98). -/
def State.channelLost (c : Nat) (s : State) : State :=
  match s.channel c with
  | none => s
  | some r =>
    if r.quality = .lost then s
    else
      (((s.modChannel c fun r => { r with quality := .lost, seedDue := true, armed := false }).journalQuality c
        r.quality).endCapture c .unreachable).reportChannel c

/-- A LOST channel of a station that is adopted again becomes WAITING (R71). -/
def State.channelAdopted (c : Nat) (s : State) : State :=
  match s.channel c with
  | none => s
  | some r =>
    if r.quality = .lost then
      (s.modChannel c fun r => { r with quality := .waiting, seedDue := true, lastFeed := s.clock, armed := true }).reportChannel c
    else s

/-! ## SAMPLES replies (R62) -/

/-- Raise a station's error count, or the unattributed-discard count when the address has no record (R16). -/
def State.chargeStation (st : Nat) (s : State) : State :=
  match s.station st with
  | some _ => (s.modStation st fun r => { r with errors := sat16 (r.errors + 1) }).handled .ring
  | none => s.modRing fun g => { g with unattributed := sat16 (g.unattributed + 1) }

/-- One entry of a SAMPLES reply of a station: the raw code in bits 0 to 11, the local index in bits 12 to 14,
bit 15 the SUSPECT mark (R62, R186). -/
def State.sampleEntry (st w : Nat) (s : State) : State :=
  match s.station st with
  | none => s
  | some r =>
    let index := w / 0x1000 % 8
    if r.base.any fun b => decide (b.channels ≤ index) then s.chargeStation st
    else if r.link ≠ .up ∧ r.link ≠ .silent then s
    else
      match r.description with
      | none => s
      | some d =>
        if index < d.channels.length then
          (s.takeSample (d.firstChannel + index) (w % 0x1000) (decide (0x8000 ≤ w))).handled .channels
        else s

/-- A SAMPLES reply of a station (R62): the whole reply is discarded when its entry count is 0 or above 8 or
its length disagrees with it. -/
def State.handleSamples (st count length : Nat) (payload : List Byte) (s : State) : State :=
  if count = 0 ∨ 8 < count ∨ length ≠ 2 * count then s.chargeStation st
  else forEach (List.range count) (fun i s => s.sampleEntry st (u16 payload (2 * i))) s

end Sys2Proof.Machine
end

