-- ==== Sys2Proof/Machine/Params.lean ====
section
/-! DEFINITION. The parameter transfer unit (11_station_parameter_transfers.md R176 to R180). -/

namespace Sys2Proof.Machine

/-- The words or pairs of the count not yet handled (R177). -/
def Transfer.remaining (t : Transfer) : Nat :=
  if t.write || t.mode == .paired then t.count - t.position else t.count - t.done

/-- The words an INCREMENT frame may address from the current index before it would pass L (R177). -/
def Transfer.upToLast (t : Transfer) (most : Nat) : Nat :=
  if t.current ≤ t.last then min most (t.last - t.current + 1) else most

/-- The word count k of the next frame (R177). -/
def Transfer.nextCount (t : Transfer) : Nat :=
  match t.mode, t.write with
  | .increment, false => min (t.upToLast 8) t.remaining
  | .increment, true => min (t.upToLast 7) t.remaining
  | .fixed, false => min 8 t.remaining
  | .fixed, true => min 7 t.remaining
  | .paired, false => min 7 t.remaining
  | .paired, true => min 3 t.remaining

/-- The head word of a PARAM frame (R186): index, k - 1, WRITE in bit 12, mode in bits 13 and 14. -/
def Transfer.head (t : Transfer) (index k : Nat) : Nat :=
  index % 0x100 + 0x100 * ((k - 1) % 8) + 0x1000 * boolCode t.write + 0x2000 * t.mode.code

/-- The list words of the entries that the next frame reads as indices (R177): none but in PAIRED. -/
def Transfer.listIndices (t : Transfer) (word : Nat → Nat) (k : Nat) : List Nat :=
  match t.mode with
  | .paired => (List.range k).map fun j => if t.write then word (2 * (t.position + j)) else word (t.position + j)
  | .increment => []
  | .fixed => []

/-- The indices a frame of k words addresses, in order (R175). -/
def Transfer.addressed (t : Transfer) (word : Nat → Nat) (k : Nat) : List Nat :=
  match t.mode with
  | .increment => (List.range k).map fun j => t.current + j
  | .fixed => List.replicate k t.current
  | .paired => t.listIndices word k

/-- The further words of a frame (R175). -/
def Transfer.furtherWords (t : Transfer) (word : Nat → Nat) (k : Nat) : List Nat :=
  match t.mode, t.write with
  | .increment, true => (List.range k).map fun j => word (t.position + j)
  | .fixed, true => (List.range k).map fun j => word (t.position + j)
  | .increment, false => []
  | .fixed, false => []
  | .paired, false => t.listIndices word k
  | .paired, true => (List.range k).flatMap fun j => [word (2 * (t.position + j)), word (2 * (t.position + j) + 1)]

/-- How far the list position moves when a frame of k is formed (R177, log 21). -/
def Transfer.listRead (t : Transfer) (k : Nat) : Nat := if t.write || t.mode == .paired then k else 0

/-- The next frame of a transfer (R175, R177). That the index field of the head word of a PAIRED frame, for which no rule
names an index, is 0 is the model's choice (log 103). -/
def Transfer.form (t : Transfer) (word : Nat → Nat) : ParamFrame :=
  let k := t.nextCount
  { indices := t.addressed word k,
    payload := (t.head (if t.mode = .paired then 0 else t.current) k :: t.furtherWords word k).flatMap le16,
    sent := false }

/-- Word j of a transfer's region (R176). -/
def State.regionWord (s : State) (t : Transfer) (j : Nat) : Nat := s.readWord (t.offset + 2 * j)

/-- A transfer ends: the context becomes idle and the ending is reported (R179). -/
def State.endTransfer (st : Nat) (out : OrderOutcome) (stop : Nat) (s : State) : State :=
  match s.param st with
  | none => s
  | some t =>
    (s.setParam st none).complete t.slot out false t.done
      ([byte st, byte (boolCode t.write), byte t.mode.code, 0] ++ le16 t.done ++ le16 t.position ++ le16 stop)

/-- Offer the frame of a context to the ring controller (R177, R178). -/
def State.offerParam (st : Nat) (s : State) : State :=
  match s.param st with
  | none => s
  | some t =>
    match t.frame with
    | none => s
    | some f =>
      if f.sent then s
      else
        match s.offer st { kind := .param, payload := f.payload, origin := .param, held := 0 } with
        | (.accepted, s) => s.setParam st (some { t with frame := some { f with sent := true } })
        | (.unreachable, s) => s.endTransfer st .unreachable 0
        | (_, s) => s

/-- Form the next frame and offer it, or complete when nothing remains (R177, R178). An index above 255 ends
the transfer when it is read; that a PAIRED WRITE pair with such an index counts among the pairs read is the model's
choice (R179, log 94). -/
def State.formParam (st : Nat) (s : State) : State :=
  match s.param st with
  | none => s
  | some t =>
    if t.remaining = 0 then s.endTransfer st .ok 0
    else
      let word := s.regionWord t
      match (t.listIndices word t.nextCount).findIdx? fun i => decide (255 < i) with
      | some j =>
        (s.setParam st (some { t with position := t.position + j + 1, frame := none })).endTransfer st .badParameter 0
      | none =>
        let t := { t with frame := some (t.form word), position := t.position + t.listRead t.nextCount }
        (s.setParam st (some t)).offerParam st

/-- Write the values a READ brought into the region at their places in the transfer (R178). -/
def State.storeValues (t : Transfer) (values : List Nat) (s : State) : State :=
  if t.write then s
  else
    let start := if t.mode = .paired then t.count + t.done else t.done
    s.write (t.offset + 2 * start) (values.flatMap le16)

/-- The current index and list position after a DONE frame of k words (R177, R178). In an INCREMENT WRITE
whose last index was L the next list word is read as a new start index; none is answered when that word lies
above 255. That the index of a WRITE frame sent above L and answered DONE runs on past L, and past 255, is the model's
choice (log 112). -/
def Transfer.advance (t : Transfer) (word : Nat → Nat) (k : Nat) : Option Transfer × Transfer :=
  match t.mode, t.write with
  | .increment, false =>
    let c := t.current + k
    (some { t with current := if t.last < c then 0 else c }, t)
  | .increment, true =>
    let c := t.current + k
    if c = t.last + 1 ∧ t.position < t.count then
      let w := word t.position
      let t' := { t with current := w, position := t.position + 1 }
      (if 255 < w then none else some t', t')
    else (some { t with current := c }, t)
  | .fixed, _ => (some t, t)
  | .paired, _ => (some t, t)

/-- A reply to the PARAM frame in flight (R178, R180): `result` is DONE 0, BEYOND END 1 or READ ONLY 2,
`words` the number of words the station reports done. That DONE counts the k words of the frame whatever the reply reports,
that a stop reports at most k with stop index 0 past them, and that a PARAM ACK to a READ counts its words and stores none,
is the model's choice (log 95). So is that a transfer marked aborted reads no list word more when its frame ends: after an
INCREMENT WRITE frame that ended DONE at index L the new-start word is not read, and the list words read do not count it
(R177, R179; log 116). -/
def State.paramReply (st result words : Nat) (values : List Nat) (s : State) : State :=
  match s.param st with
  | none => s
  | some t =>
    match t.frame with
    | none => s
    | some f =>
      let k := f.indices.length
      let n := if result = 0 then k else min k words
      let s := s.storeValues t (values.take n)
      let t := { t with done := t.done + n, frame := none }
      let s := s.setParam st (some t)
      if t.aborted then s.endTransfer st .aborted 0
      else if result = 1 then s.endTransfer st .beyondEnd (f.indices.getD n 0)
      else if result ≠ 0 then s.endTransfer st .readOnly (f.indices.getD n 0)
      else
        match t.advance (s.regionWord t) k with
        | (some t', _) => (s.setParam st (some t')).formParam st
        | (none, t') => (s.setParam st (some t')).endTransfer st .badParameter 0

/-- The frame of a transfer ended without a reply, or its station went DOWN: the transfer ends with that
outcome, or ABORTED when the abort mark is set (R178, R180). -/
def State.paramFailed (st : Nat) (out : OrderOutcome) (s : State) : State :=
  match s.param st with
  | none => s
  | some t => s.endTransfer st (if t.aborted then .aborted else out) 0

/-- ABORT of a transfer (R180): it waits for a frame in flight, and otherwise ends at once. -/
def State.abortParam (st : Nat) (s : State) : State :=
  match s.param st with
  | none => s
  | some t =>
    let s := s.setParam st (some { t with aborted := true })
    if t.frame.any (·.sent) then s else s.endTransfer st .aborted 0

end Sys2Proof.Machine
end

