-- ==== Sys2Proof/Machine/Stations.lean ====
section
/-! DEFINITION. The station table and the link monitor (02_enrolment_and_link_surveillance.md R23 to R41). -/

namespace Sys2Proof.Machine

/-- The contents of a filled heartbeat position (R17, R186): fan entries are actual step and direction,
standstill flag and fault code; door entries are the reported codes. -/
structure Heartbeat where
  intake     : Intake
  replies    : Nat
  downstream : Bool
  upstream   : Bool
  turning    : Bool
  fanCount   : Nat
  doorCount  : Nat
  fans       : List (Speed × Bool × Nat)
  doors      : List Nat
  deriving DecidableEq, Repr

/-- A page exchange at its beginning (R23, R28). -/
def Exchange.fresh (now : CycleNo) : Exchange :=
  { wanted := 0, first := now, base := none, fans := [], channels := [], doors := [], offer := false }

/-- A station record at its creation (R23). -/
def Station.created (now : CycleNo) : Station :=
  { link := .paging, cause := .none, missRun := 0, goodRun := 0, pendingSince := none, errors := 0,
    linkDowns := 0, wasDown := false, partFlag := false, mismatch := false, base := none, description := none,
    pages := Exchange.fresh now, heard := none, downstream := false, upstream := false, turning := false,
    reEnrol := false }

/-- The station table is emptied (R23). -/
def State.emptyTable (s : State) : State := State.showEnrolled 0 0 0 0 { s with stations := [] }

/-- Offer the PAGE REQUEST of the wanted page (R28); one refused FULL is offered again at the next cycle. -/
def State.offerPage (st : Nat) (s : State) : State :=
  match s.station st with
  | none => s
  | some r =>
    match s.offer st { kind := .pageRequest, payload := [byte r.pages.wanted], origin := .page, held := 0 } with
    | (.accepted, s) => s.modStation st fun r => { r with pages := { r.pages with offer := false } }
    | (_, s) => s.modStation st fun r => { r with pages := { r.pages with offer := true } }

/-! ## Numbering and adoption (R32 to R35) -/

/-- A fan record at numbering (R33, R98); its state follows by adoption. -/
def Fan.numbered (station index : Nat) (p : FanPage) : Fan :=
  { station := station, index := index, kind := p.kind, reversible := p.reversible, top := p.top,
    feeder := p.feeder, zone := none, group := none, profile := .default, source := .auto,
    requested := { step := min p.actual.step p.top, dir := p.actual.dir }, doorReq := false, cap := p.top,
    commanded := p.actual, lastSent := none, stepFrame := .none, actual := p.actual, standstill := false,
    faultCode := 0, heard := false, state := .stopped, reversal := false, timer := none, slotHeld := false,
    notReady := 0, cause := .none, runMinutes := p.runMinutes, runSeconds := 0, plannerStart := none,
    part := none }

/-- A channel record at numbering (R33, R60). -/
def Channel.numbered (now : Clock) (station index : Nat) (p : ChannelPage) : Channel :=
  { station := station, index := index, kind := p.kind, zero := p.zero,
    gain := if p.gain = 0 then 4096 else p.gain, shift := 3, under := 640, skip := true, stale := 5, acc := 0,
    value := 0, quality := .waiting, seedDue := true, clamped := false, lastFeed := now, lastRaw := 0,
    zone := none, capture := none, armed := true }

/-- A door record at numbering (R33, R134). -/
def Door.numbered (station index : Nat) (p : DoorPage) (passage : Option Nat) : Door :=
  { station := station, index := index, kind := p.kind, zone := none, reported := p.state, state := .none,
    holdLimit := 120, holdTimer := none, passage := passage, passageStep := 4, runOn := 30, runOnTimer := none,
    smoke := false, caps := [], source := .auto, manualMode := .dark, confirmed := none, beacon := .none,
    signal := none }

/-- Store a run of records from a number on. -/
def setRun {α : Type} (l : List (Option α)) (first : Nat) : List α → List (Option α)
  | [] => l
  | x :: xs => setRun (l.set first (some x)) (first + 1) xs

/-- How many fans, channels and doors have been numbered so far. -/
structure Numbered where
  fans     : Nat
  channels : Nat
  doors    : Nat
  deriving DecidableEq, Repr

/-- The numbered description of a station without numbered devices (R32). -/
def Numbered.noDevices (n : Numbered) : Description :=
  { firstFan := n.fans, fans := [], firstChannel := n.channels, channels := [], firstDoor := n.doors, doors := [] }

/-- The numbered description of a station whose devices are numbered from `n` on (R32). -/
def Numbered.describe (n : Numbered) (fs : List FanPage) (cs : List ChannelPage) (ds : List DoorPage) : Description :=
  { firstFan := n.fans, fans := fs.map (·.kind), firstChannel := n.channels, channels := cs.map (·.kind),
    firstDoor := n.doors, doors := ds.map (·.kind) }

/-- Number the devices of one UP station, in local order, as far as numbers remain (R32, R33). -/
def State.numberStation (st : Nat) (x : Numbered × State) : Numbered × State :=
  let (n, s) := x
  match s.station st with
  | none => (n, s)
  | some r =>
    if r.link ≠ .up then
      (n, s.modStation st fun r => { r with description := some n.noDevices })
    else
      let fs := r.pages.fans.take (48 - n.fans)
      let cs := r.pages.channels.take (96 - n.channels)
      let ds := r.pages.doors.take (32 - n.doors)
      let excess := fs.length < r.pages.fans.length ∨ cs.length < r.pages.channels.length ∨
        ds.length < r.pages.doors.length
      let resolve (o : Option Nat) : Option Nat := o.bind fun i => if i < fs.length then some (n.fans + i) else none
      let s := s.modStation st fun r => { r with
        description := some (n.describe fs cs ds), partFlag := r.partFlag || decide excess }
      let s : State := { s with
        fans := setRun s.fans n.fans (fs.mapIdx fun i p => Fan.numbered st i p),
        channels := setRun s.channels n.channels (cs.mapIdx fun i p => Channel.numbered s.clock st i p),
        doors := setRun s.doors n.doors (ds.mapIdx fun i p => Door.numbered st i p (resolve p.passage)),
        enrol := s.enrol.map fun e => { e with overCapacity := e.overCapacity || decide excess } }
      ({ fans := n.fans + fs.length, channels := n.channels + cs.length, doors := n.doors + ds.length }, s)

/-- The numbered device of a run by its local index. -/
def ofRun (first count index : Nat) : Option Nat := if index < count then some (first + index) else none

/-- The passage fans named by the doors of a station. -/
def State.passagesOf (s : State) (st : Nat) : List Nat :=
  ((s.doors.filterMap id).filterMap fun d => if d.station = st then d.passage else none).eraseDups

/-- A station's fans, channels and doors are adopted from its pages, the passage requests of its doors are
written and its beacons brought to their modes (R34, R41, R71, R139, R142). `before` is the state code of its
fans until then. That the fans are adopted first, then the channels, then the doors, each by local index, is the model's
choice (log 74); so is that the requests of the passage fans its doors name are written by ascending door number
(log 86), and then the beacons are offered by local index (log 91). -/
def State.adoptStation (before : Nat) (st : Nat) (s : State) : State :=
  match s.station st with
  | none => s
  | some r =>
    match r.description with
    | none => s
    | some d =>
      let s := (List.range d.fans.length).foldl (fun s i =>
        match r.pages.fans[i]? with
        | none => s
        | some p => (s.adoptFan (d.firstFan + i) p before).handled .fans) s
      let s := forEach (List.range d.channels.length)
        (fun i s => (s.channelAdopted (d.firstChannel + i)).handled .channels) s
      let s := (List.range d.doors.length).foldl (fun s i =>
        match r.pages.doors[i]? with
        | none => s
        | some p => (s.takeReported (d.firstDoor + i) p.state true).handled .doors) s
      let s := forEach (s.passagesOf st) (State.writePassage true) s
      forEach (List.range d.doors.length) (fun i s => s.compareBeacon (d.firstDoor + i)) s

/-- The result of an ENROL that ended OK (R35, R183). -/
def enrolBody (s : State) (e : EnrolContext) (n : Numbered) : List Byte :=
  [byte s.stations.length, byte (s.stations.filter fun r => r.link == .up).length, byte n.fans,
    byte n.channels, byte n.doors, byte (flagByte [e.excess, e.overCapacity])]

/-- Numbering, which rewrites the tables of the devices whole (R79, R122, R148), adoption and the completion of the ENROL
(R32 to R35). That the stations are adopted by ascending address,
each with its passage requests and beacons before the next, is the model's choice (R34, log 85). -/
def State.numberAll (s : State) : State :=
  let (n, s) := s.stationNumbers.foldl (fun x st => State.numberStation st x) ({ fans := 0, channels := 0, doors := 0 }, s)
  let s := ((s.handledAs .whole .fans).handledAs .whole .channels).handledAs .whole .doors
  let s := forEach s.stationNumbers (State.adoptStation 0) s
  let s := s.showEnrolled s.stations.length n.fans n.channels n.doors
  let s := (s.setRingState .closed).handled .ring
  match s.enrol with
  | none => s
  | some e => State.complete e.slot .ok false 1 (enrolBody s e n) { s with enrol := none }

/-- The excess probe, if one was needed, has been settled (R27). -/
def Probe.over : Probe → Bool
  | .none => true
  | .settled => true
  | .out _ => false

/-- The ENROL moves to numbering at the first moment when every enrolled station is UP or DOWN and the excess
probe is settled (R32). -/
def State.checkNumbering (s : State) : State :=
  match s.enrol with
  | none => s
  | some e =>
    if e.addressed && e.probe.over && s.stations.all fun r => r.link == .up || r.link == .down then s.numberAll
    else s

/-- An ENROL ends in any way other than completion: the table is emptied and the ring becomes IDLE (R23, R26,
R36, R50). -/
def State.failEnrol (out : OrderOutcome) (s : State) : State :=
  match s.enrol with
  | none => s
  | some e => (State.emptyTable { s with enrol := none }).ringToIdle.completeBare e.slot out

/-! ## Link states (R31, R37 to R41) -/

/-- A station going DOWN changes its devices (R39). Its fans become UNREACHABLE before any grant is made, so that none of
them is granted a slot that another of them gives up (R126, R130). That its channels become LOST in turn by local index,
each reported before the next is LOST, is the model's choice (log 65): it decides the value and the level that a zone
holds when two members of one kind go together (R86). That the slots given up are granted only after the channels are LOST
and the doors UNREACHABLE is the model's choice too (R130, log 83), and so is that the feeders make these grants by
ascending number (R125, log 89), and that the fans change first, then the channels, the doors and the transfer (log
106). -/
def State.devicesDown (st : Nat) (s : State) : State :=
  match (s.station st).bind (·.description) with
  | none => s.paramFailed st .unreachable
  | some d =>
    let s := forEach (List.range d.fans.length) (fun i s => (s.fanLostBare (d.firstFan + i)).handled .fans) s
    let s := forEach (List.range d.channels.length)
      (fun i s => (s.channelLost (d.firstChannel + i)).handled .channels) s
    let s := forEach (List.range d.doors.length) (fun i s => (s.doorLost (d.firstDoor + i)).handled .doors) s
    (forEach (List.range 4) State.grants (s.paramFailed st .unreachable)).handled .fans

/-- A station goes DOWN (R38): the link-down count and WAS DOWN change unless a re-enrolment has failed. That a
re-enrolment which fails during an ENROL is taken under R38's second bullet, not its first, is the model's choice
(log 52). -/
def State.stationDown (st : Nat) (c : DownCause) (s : State) : State :=
  let s := s.modStation st fun r => { r with
    link := .down, cause := c, goodRun := 0, pendingSince := none,
    linkDowns := if r.reEnrol then r.linkDowns else min (r.linkDowns + 1) 255,
    wasDown := r.wasDown || !r.reEnrol, reEnrol := false, pages := Exchange.fresh s.ring.cycle }
  let s := s.journal .stationDown st c.code 0
  ((s.endTraffic st).devicesDown st).checkNumbering

/-- A station becomes PENDING (R31, R37, R41). -/
def State.becomePending (st : Nat) (s : State) : State :=
  s.modStation st fun r => { r with link := .pending, goodRun := 0, pendingSince := some s.ring.cycle }

/-- A PENDING station has given its fifth good heartbeat (R31, R41). A re-enrolled station is adopted. -/
def State.becomeUp (st : Nat) (s : State) : State :=
  let s := s.modStation st fun r => { r with link := .up, pendingSince := none, reEnrol := false }
  let s := s.journal .stationUp st 0 0
  (s.adoptStation FanState.unreachable.code st).checkNumbering

/-- The pages of a re-enrolment match the numbered description (R41). -/
def Description.matchesPages (d : Description) (x : Exchange) : Bool :=
  d.fans == x.fans.map (·.kind) && d.channels == x.channels.map (·.kind) && d.doors == x.doors.map (·.kind)

/-- The pages of a station are complete (R30, R31, R41): it becomes PENDING with the base page it gave, unless they do
not match a numbered description. The place of STATION MISMATCH among the records is the model's choice (log 64). -/
def State.pagesComplete (st : Nat) (s : State) : State :=
  match s.station st with
  | none => s
  | some r =>
    if r.description.all fun d => d.matchesPages r.pages then
      (s.modStation st fun r => { r with base := r.pages.base }).becomePending st
    else
      ((s.modStation st fun r => { r with mismatch := true }).stationDown st .mismatch).journal .stationMismatch
        st 0 0

/-- The last page of a station with this base page (R28, R30). -/
def BasePage.lastPage (b : BasePage) : Nat := b.fans + b.channels + b.doors

/-- A base page as it stands in a reply's payload (R29, R186). -/
def readBasePage (p : List Byte) : BasePage :=
  { kind := u8 p 0, fans := u8 p 1, channels := u8 p 2, doors := u8 p 3, lastParam := u8 p 4, chainage := u16 p 6 }

/-- A fan page, when its top step and feeder lie within their ranges (R29, R30, R186). The actual step is taken as it
stands (log 36). -/
def readFanPage (p : List Byte) : Option FanPage :=
  if 1 ≤ u8 p 4 ∧ u8 p 4 ≤ 8 ∧ u8 p 5 ≤ 3 then
    some { kind := (FanKind.ofCode? (listed .fanKind 2 (u8 p 2))).getD .jet, reversible := u8 p 3 % 2 == 1, top := u8 p 4,
           feeder := u8 p 5,
           actual := { step := u8 p 6, dir := (Dir.ofCode? (listed .direction 2 (u8 p 7))).getD .plus },
           runMinutes := u32 p 8 }
  else none

/-- A channel page (R29, R186). The default zero is taken as it stands (log 36). -/
def readChannelPage (p : List Byte) : ChannelPage :=
  { kind := (ChKind.ofCode? (listed .chKind 4 (u8 p 2))).getD .co, zero := u16 p 3, gain := u16 p 5 }

/-- A door page; the attached fan must be a local index below the fan count of a PASSAGE fan (R29, R30, R186). -/
def readDoorPage (fans : List FanPage) (p : List Byte) : Option DoorPage :=
  let kind := (DoorKind.ofCode? (listed .doorKind 2 (u8 p 2))).getD .hinged
  if u8 p 4 = 0xFF then some { kind := kind, state := Reported.ofStation (u8 p 3), passage := none }
  else if (fans[u8 p 4]?).any fun f => f.kind == .passage then
    some { kind := kind, state := Reported.ofStation (u8 p 3), passage := some (u8 p 4) }
  else none

/-- A page reply checked against what is wanted and known (R30): the exchange with the page added, or none when
the page fails. R30 tests neither the payload length nor the qualifier of a BASE PAGE, and the model's choice is to test
neither: the 16 bytes are read as they stand (logs 107, 108). -/
def Exchange.addPage (x : Exchange) (kind qualifier : Nat) (p : List Byte) : Option Exchange :=
  if x.wanted = 0 then
    let b := readBasePage p
    if kind = 1 ∧ b.fans ≤ 4 ∧ b.channels ≤ 8 ∧ b.doors ≤ 2 ∧ (u8 p 5 % 2 = 1 ↔ 0 < b.lastPage) then
      some { x with base := some b }
    else none
  else
    match x.base with
    | none => none
    | some b =>
      if kind = 2 ∧ u8 p 0 = x.wanted ∧ (u8 p 1 % 2 = 1 ↔ x.wanted < b.lastPage) then
        if x.wanted ≤ b.fans then
          if qualifier = 0 then (readFanPage p).map fun f => { x with fans := x.fans ++ [f] } else none
        else if x.wanted ≤ b.fans + b.channels then
          if qualifier = 1 then some { x with channels := x.channels ++ [readChannelPage p] } else none
        else
          if qualifier = 2 then (readDoorPage x.fans p).map fun d => { x with doors := x.doors ++ [d] } else none
      else none

/-- A page has arrived by its tag (R28 to R31). The base page of an enrolment is held from its arrival; that of a
re-enrolment replaces the one held when the pages are complete (R38, R41). -/
def State.pageArrived (st kind qualifier : Nat) (p : List Byte) (s : State) : State :=
  match s.station st with
  | none => s
  | some r =>
    if r.link ≠ .paging then s
    else
      match r.pages.addPage kind qualifier p with
      | none => s.stationDown st .pageFault
      | some x =>
        let s := s.modStation st fun r => { r with
          pages := x, base := if r.reEnrol then r.base else x.base }
        if x.wanted < (x.base.map BasePage.lastPage).getD 0 then
          (s.modStation st fun r => { r with
            pages := { r.pages with wanted := x.wanted + 1, first := s.ring.cycle } }).offerPage st
        else s.pagesComplete st

/-- A PAGE REQUEST ended NO DELIVERY or NO ANSWER: it is offered again at the next cycle (R28). That the next cycle of
one that ends at an opening is the cycle being opened is the model's choice (log 63). -/
def State.pageFailed (st : Nat) (s : State) : State :=
  s.modStation st fun r => if r.link = .paging then { r with pages := { r.pages with offer := true } } else r

/-- The wanted page has not arrived by the close of the 20th cycle after its first request (R28). -/
def Station.pageDue (now : CycleNo) (r : Station) : Bool :=
  r.link == .paging && decide (20 ≤ (now - r.pages.first).toNat)

/-- A PENDING station has not become UP by the close of the 40th cycle (R37). -/
def Station.pendingDue (now : CycleNo) (r : Station) : Bool :=
  r.link == .pending && r.pendingSince.any fun c => decide (40 ≤ (now - c).toNat)

/-- The last-heartbeat items of a station (R23, R37). -/
def State.recordHeartbeat (st : Nat) (side : Port) (h : Heartbeat) (s : State) : State :=
  s.modStation st fun r => { r with
    heard := some (side, s.ring.cycle), downstream := h.downstream, upstream := h.upstream, turning := h.turning }

/-- A heartbeat is applied (R37): the last-heartbeat items, then the numbered fans, then the numbered doors. That the fans
act before the doors, each sort by ascending local index, is the model's choice (log 101). -/
def State.applyHeartbeat (st : Nat) (side : Port) (h : Heartbeat) (s : State) : State :=
  match s.station st with
  | none => s
  | some r =>
    let s := s.recordHeartbeat st side h
    match r.description with
    | none => s
    | some d =>
      let s := (h.fans.take d.fans.length).zipIdx.foldl (fun s x =>
        (s.fanHeartbeat (d.firstFan + x.2) x.1.1 x.1.2.1 x.1.2.2).handled .fans) s
      (h.doors.take d.doors.length).zipIdx.foldl (fun s x =>
        (s.takeReported (d.firstDoor + x.2) (Reported.ofStation x.1) false).handled .doors) s

/-- The entries of a heartbeat agree with the counts of the base page (R37). -/
def Station.entriesAgree (r : Station) (h : Heartbeat) : Bool :=
  r.base.any fun b => h.fanCount == b.fans && h.doorCount == b.doors

/-- A good heartbeat of an UP or SILENT station whose entry counts disagree (R37). That STATION MISMATCH follows STATION
DOWN and all that the DOWN brings about is the model's choice (log 64). -/
def State.heartbeatMismatch (st : Nat) (s : State) : State :=
  (s.stationDown st .mismatch).journal .stationMismatch st 0 0

/-- A re-enrolment starts (R40). -/
def State.startReEnrolment (st : Nat) (s : State) : State :=
  (s.modStation st fun r => { r with
    missRun := 0, link := .paging, reEnrol := true, pages := Exchange.fresh s.ring.cycle }).offerPage st

/-- The link monitor is told of a good heartbeat (R37, R40). A SILENT station whose heartbeat carries other entry counts
goes DOWN with cause MISMATCH and no STATION UP record: the model's choice (log 51). A SILENT station that is UP again
may be the last that an ENROL waits for (R32); that its heartbeat is applied before the numbering is the model's choice
(log 96). -/
def State.goodHeartbeat (st : Nat) (side : Port) (h : Heartbeat) (s : State) : State :=
  match s.station st with
  | none => s
  | some r =>
    match r.link with
    | .paging => (s.modStation st fun r => { r with missRun := 0 }).recordHeartbeat st side h
    | .pending =>
      let s := (s.modStation st fun r => { r with missRun := 0, goodRun := r.goodRun + 1 }).recordHeartbeat st side h
      if 5 ≤ r.goodRun + 1 then s.becomeUp st else s
    | .up =>
      let s := s.modStation st fun r => { r with missRun := 0 }
      if r.entriesAgree h then s.applyHeartbeat st side h else s.heartbeatMismatch st
    | .silent =>
      let s := s.modStation st fun r => { r with missRun := 0 }
      if r.entriesAgree h then
        (((s.modStation st fun r => { r with link := .up }).journal .stationUp st 0 0).applyHeartbeat st side
          h).checkNumbering
      else s.heartbeatMismatch st
    | .down =>
      if r.cause = .silence ∨ r.cause = .pageTimeout then s.startReEnrolment st
      else s.modStation st fun r => { r with missRun := 0 }

/-- The link monitor is told that a station missed the cycle (R37). -/
def State.missedCycle (st : Nat) (s : State) : State :=
  match s.station st with
  | none => s
  | some r =>
    let run := min (r.missRun + 1) 255
    let s := s.modStation st fun r => { r with missRun := run }
    match r.link with
    | .paging => if 20 ≤ run then s.stationDown st .silence else s
    | .pending =>
      let s := s.modStation st fun r => { r with goodRun := 0 }
      if 20 ≤ run then s.stationDown st .silence else s
    | .up =>
      if 3 ≤ run then (s.modStation st fun r => { r with link := .silent }).journal .stationSilent st 0 0 else s
    | .silent => if 20 ≤ run then s.stationDown st .silence else s
    | .down => s

/-! ## Addressing (R26, R27) -/

/-- An addressing attempt asks for CLEAR ADDRESS and TAKE ADDRESS in the next train (R26). -/
def State.addressingAttempt (s : State) : State :=
  (s.askTrainWide .clearAddress).askTrainWide (.takeAddress 1 false)

/-- The probe is asked for in the next train (R27). -/
def State.askProbe (s : State) : State := s.askTrainWide (.takeAddress 25 true)

/-- A TAKE ADDRESS of the attempt came back readable with a value from 1 to 25 (R26). -/
def State.addressed (v : Nat) (s : State) : State :=
  match s.enrol with
  | none => s
  | some e =>
    let s : State := { s with
      stations := List.replicate (v - 1) (Station.created s.ring.cycle),
      enrol := some { e with addressed := true, probe := if v = 25 then .out 0 else .none } }
    let s := forEach s.stationNumbers State.offerPage s
    (if v = 25 then s.askProbe else s).checkNumbering

/-- An addressing attempt has failed (R26). -/
def State.attemptFailed (s : State) : State :=
  match s.enrol with
  | none => s
  | some e =>
    if 3 ≤ e.failures + 1 then s.failEnrol .noDelivery
    else State.addressingAttempt { s with enrol := some { e with failures := e.failures + 1 } }

/-- The probe is settled (R27). -/
def State.settleProbe (excess : Bool) (s : State) : State :=
  State.checkNumbering { s with enrol := s.enrol.map fun e => { e with probe := .settled, excess := excess } }

/-- The probe came back unreadable or was lost (R27). -/
def State.probeFailed (s : State) : State :=
  match s.enrol with
  | none => s
  | some e =>
    match e.probe with
    | .out n =>
      if 3 ≤ n + 1 then s.settleProbe true
      else State.askProbe { s with enrol := some { e with probe := .out (n + 1) } }
    | .none => s
    | .settled => s

/-- A returned train-wide frame is handed to its originator: its payload, or none when it is unreadable or was
lost (R7, R26, R27, R57). -/
def State.wideReturned (w : TrainWide) (payload : Option (List Byte)) (s : State) : State :=
  match w with
  | .clearAddress => s
  | .reclose => s
  | .takeAddress _ false =>
    match payload with
    | some p => if 1 ≤ u8 p 0 ∧ u8 p 0 ≤ 25 then s.addressed (u8 p 0) else s.attemptFailed
    | none => s.attemptFailed
  | .takeAddress _ true =>
    match payload with
    | some p => s.settleProbe (u8 p 1 / 2 % 2 == 1)
    | none => s.probeFailed

end Sys2Proof.Machine
end

