-- ==== Sys2Proof/Machine/Train.lean ====
section
/-! DEFINITION. The train: its parts and checks (12 R186), the placing of command frames and the assignment of
shared reply slots (01 R4, R10, R11, R19; 03 R53, R54), and the reading of returned parts (R6). -/

namespace Sys2Proof.Machine

/-! ## The check (R186) -/

/-- One bit of the cyclic check with generator x^16 + x^12 + x^5 + 1. -/
def crcBit (r : BitVec 16) (b : Bool) : BitVec 16 :=
  if (r.getLsbD 15) != b then (r <<< 1) ^^^ 0x1021 else r <<< 1

/-- One byte, most significant bit first. -/
def crcByte (r : BitVec 16) (x : Byte) : BitVec 16 :=
  [7, 6, 5, 4, 3, 2, 1, 0].foldl (fun r i => crcBit r (x.getLsbD i)) r

/-- The check over bytes in order, from the initial value 0xFFFF. -/
def crc16 (bs : List Byte) : BitVec 16 := bs.foldl crcByte 0xFFFF

/-- A part with its check stored little-endian at its end. -/
def withCheck (bs : List Byte) : List Byte := bs ++ le16 (crc16 bs).toNat

/-- A part of `size` bytes at an offset of a received train: its bytes without the check, or none when it is not
there whole or its check differs (R6). -/
def readPart (bytes : List Byte) (off size : Nat) : Option (List Byte) :=
  let part := (bytes.drop off).take size
  let body := part.take (size - 2)
  if part.length = size ∧ part.drop (size - 2) = le16 (crc16 body).toNat then some body else none

/-! ## Places of the parts (R4, R186) -/

def headerSize : Nat := 21
def frameSize : Nat := 26
def beatSize : Nat := 16
def slotSize : Nat := 24

def frameOff (i : Nat) : Nat := headerSize + frameSize * i
def beatOff (frames k : Nat) : Nat := frameOff frames + beatSize * (k - 1)
def replyOff (frames i : Nat) : Nat := beatOff frames 25 + slotSize * i

/-! ## Building (R4, R186) -/

/-- The destination mask of one station: bit k for station k. -/
def maskOf (st : Nat) : BitVec 32 := BitVec.ofNat 32 (2 ^ st)

/-- A command frame: mask, kind, class, tag, payload length, payload. -/
def frameBytes (mask : BitVec 32) (kind : FrameKind) (answered : Bool) (tag : Nat) (payload : List Byte) : List Byte :=
  withCheck (le32 mask.toNat ++
    [byte kind.code, byte (boolCode answered), byte tag, byte payload.length] ++ padTo 16 payload)

def TrainWide.kind : TrainWide → FrameKind
  | .clearAddress => .clearAddress
  | .takeAddress _ _ => .takeAddress
  | .reclose => .reclose

def TrainWide.payload : TrainWide → List Byte
  | .clearAddress => []
  | .takeAddress v probe => [byte v, byte (boolCode probe)]
  | .reclose => []

/-- The bytes of a sent frame: a train-wide frame is PLAIN with an empty mask and no tag, a queued frame is
ANSWERED with the mask and tag of its entry (R7). -/
def State.sentFrameBytes (s : State) : SentFrame → List Byte
  | .wide w => frameBytes 0 w.kind false 0xFF w.payload
  | .queued tag =>
    match s.outFrame tag with
    | none => []
    | some o => frameBytes o.mask o.frame.kind true tag o.frame.payload

/-- The header flags: side B, STOP INSERT, RECLOSE (R4, R21, R57). -/
def headerFlags (side : Port) (stopInsert reclose : Bool) : Nat := flagByte [side == .b, stopInsert, reclose]

/-- A heartbeat position as sent: EMPTY (R4). -/
def emptyBeat : List Byte := withCheck (List.replicate 14 0)

/-- A shared reply slot as sent: FREE, with its assigned station (R4); its tag reads NONE (log 31). -/
def freeSlot (assigned : Nat) : List Byte := withCheck ([0, byte assigned, 0, 0, 0xFF] ++ List.replicate 17 0)

/-- The bytes of a train (R4, R186). -/
def State.trainBytes (s : State) (side : Port) (stopInsert reclose : Bool) (t : SentTrain) : List Byte :=
  withCheck (le16 s.ring.cycle.toNat ++ [byte (headerFlags side stopInsert reclose)] ++ t.assign.map byte) ++
    t.frames.flatMap s.sentFrameBytes ++
    (List.replicate 24 emptyBeat).flatten ++
    t.assign.flatMap freeSlot ++
    withCheck (byte t.frames.length :: le16 s.ring.cycle.toNat)

/-! ## Sides (R53) -/

/-- The side recorded with a station's last used heartbeat; side A when none is recorded (R53). -/
def State.sideOf (s : State) (st : Nat) : Port := (((s.station st).bind (·.heard)).map (·.1)).getD .a

/-- Which stations a train serves: all of them when one train is sent, those of its side when two are (R53). -/
def State.serves (s : State) (two : Bool) (side : Port) (st : Nat) : Bool := !two || s.sideOf st == side

/-- Station addresses 1 to n in ascending order with wrap-round, beginning at `first` (R11, R19). -/
def stationsFrom (first n : Nat) : List Nat := (List.range n).map fun i => (first - 1 + i) % n + 1

/-- The station after one, wrapping from n to 1 (R11, R19). -/
def stationAfter (st n : Nat) : Nat := st % n + 1

/-! ## Placing command frames (R10, R11) -/

/-- The recorded intake state allows queued frames, which are all ANSWERED (R7, R10). -/
def State.admits (s : State) (st : Nat) : Bool := (s.entry st).intake == .open

/-- A frame of the station waits to be retried. -/
def State.retryWaiting (s : State) (st : Nat) : Bool :=
  s.ring.outstanding.any fun o => o.station == st && o.delivery == .retry

/-- Stage 2 of R11: the retries of the served stations that R10 does not hold, in the order in which they were
first sent. -/
def State.placeRetries (serves : Nat → Bool) (side : Port) (room : Nat) (s : State) : List SentFrame × State :=
  let tags := (((s.ring.outstanding.filter fun o =>
    o.delivery == .retry && serves o.station && s.admits o.station).map (·.tag)).take room)
  (tags.map SentFrame.queued,
    forEach tags (fun t s => s.modOutFrame t fun o => { o with
      tries := o.tries + 1, lastSent := s.ring.cycle, delivery := .inTrain side }) s)

/-- The originator learns that the ring controller has placed its frame (R101, R146). -/
def State.framePlaced (o : Origin) (s : State) : State :=
  match o with
  | .fanStep f _ => s.fanStepPlaced f
  | .beacon d _ => s.beaconPlaced d
  | .page => s
  | .fanReset _ => s
  | .param => s
  | .nobody => s

/-- What stage 3 has done so far: the frames placed, the places left and the station that placed last. -/
structure Placing where
  frames : List SentFrame
  room   : Nat
  last   : Option Nat
  deriving DecidableEq, Repr

/-- A station's turn in a pass of stage 3 (R11): the head of its queue is placed under the tag at the head of the
pool, unless the station may place nothing. -/
def State.placeHead (side : Port) (x : Placing × State) (st : Nat) : Placing × State :=
  let (p, s) := x
  match p.room, (s.entry st).queue, s.ring.pool with
  | room + 1, f :: rest, tag :: pool =>
    if s.admits st && !s.retryWaiting st then
      let s := s.modEntry st fun e => { e with queue := rest }
      let s := s.modRing fun g => { g with
        pool := pool,
        outstanding := g.outstanding ++ [OutFrame.mk st tag { f with held := 0 } (maskOf st) 1 g.cycle (.inTrain side)] }
      ({ frames := p.frames ++ [SentFrame.queued tag], room := room, last := some st }, s.framePlaced f.origin)
    else (p, s)
  | _, _, _ => (p, s)

/-- Passes repeat until the places run out or a whole pass places nothing (R11). -/
def State.placePasses (side : Port) (order : List Nat) : Nat → Placing × State → Placing × State
  | 0, x => x
  | n + 1, x =>
    let y := order.foldl (State.placeHead side) x
    if y.1.room = x.1.room then y else State.placePasses side order n y

/-! ## Assigning the shared reply slots (R19, R54) -/

/-- Passes over the demands in order: in each pass every station with demand left receives one slot. -/
def assignPasses : Nat → List (Nat × Nat) → List Nat
  | 0, _ => []
  | n + 1, d => (d.filter fun x => 0 < x.2).map (·.1) ++ assignPasses n (d.map fun x => (x.1, x.2 - 1))

/-- The stations that receive slots, in slot order, at most 16 (R19). -/
def State.assigned (s : State) (serves : Nat → Bool) (first : Nat) : List Nat :=
  let demand (st : Nat) : Nat :=
    if serves st && (s.station st).any fun r => r.link != .down then (s.entry st).replies else 0
  (assignPasses 16 ((stationsFrom first s.stations.length).map fun st => (st, demand st))).take 16

/-- The assignment list: 16 station addresses, 0 for ANY (R4, R19). -/
def assignList (l : List Nat) : List Nat := (l ++ List.replicate 16 0).take 16

/-! ## Building the trains of a cycle (R2, R4, R51, R57) -/

def State.framePtr (s : State) : Port → Nat
  | .a => s.ring.framePtr
  | .b => s.fold.framePtrB

def State.slotPtr (s : State) : Port → Nat
  | .a => s.ring.slotPtr
  | .b => s.fold.slotPtrB

def State.setFramePtr (side : Port) (st : Nat) (s : State) : State :=
  match side with
  | .a => s.modRing fun g => { g with framePtr := st }
  | .b => s.modFold fun f => { f with framePtrB := st }

def State.setSlotPtr (side : Port) (st : Nat) (s : State) : State :=
  match side with
  | .a => s.modRing fun g => { g with slotPtr := st }
  | .b => s.modFold fun f => { f with slotPtrB := st }

/-- The pointer is moved to the station after the last one served; it is unchanged when none was. -/
def State.movePtr (put : Nat → State → State) (last : Option Nat) (s : State) : State :=
  match last with
  | none => s
  | some st => put (stationAfter st s.stations.length) s

/-- Fill the up to 12 command-frame places of a train (R11). -/
def State.placeFrames (two : Bool) (side : Port) (s : State) : List SentFrame × State :=
  let serves := s.serves two side
  let wide := (s.ring.trainWide.take 12).map SentFrame.wide
  let (retries, s) := s.placeRetries serves side (12 - wide.length)
  let order := (stationsFrom (s.framePtr side) s.stations.length).filter serves
  let room := 12 - wide.length - retries.length
  let (p, s) := State.placePasses side order 12 ({ frames := [], room := room, last := none }, s)
  (wide ++ retries ++ p.frames, s.movePtr (State.setFramePtr side) p.last)

/-- Assign the slots of a train (R19, R54). -/
def State.assignSlots (two : Bool) (side : Port) (s : State) : List Nat × State :=
  let l := s.assigned (s.serves two side) (s.slotPtr side)
  (assignList l, s.movePtr (State.setSlotPtr side) l.getLast?)

/-- Build one train and send it out of the transmit port of its side. -/
def State.buildTrain (two : Bool) (side : Port) (s : State) : State :=
  let (frames, s) := s.placeFrames two side
  let (assign, s) := s.assignSlots two side
  let t : SentTrain := { frames := frames, assign := assign, accepted := false }
  let stop := s.ring.state == .enrolling || s.ring.state == .reclosing
  let out := s.trainBytes side stop (s.ring.state == .reclosing && two) t
  State.handled .ring <|
    match side with
    | .a => s.modRing fun g => { g with trainA := some t, txA := out }
    | .b => s.modRing fun g => { g with trainB := some t, txB := out }

/-- Build and send the train or trains of the cycle just opened: one out of A, or A and then B (R2, R51, R57).
The train-wide frames that were placed are asked for no longer (R7). -/
def State.buildTrains (s : State) : State :=
  let two := s.ring.kind == .two
  let s := s.modRing fun g => { g with trainA := none, trainB := none }
  let s := s.buildTrain two .a
  let s := if two then s.buildTrain two .b else s
  s.modRing fun g => { g with trainWide := g.trainWide.drop 12 }

/-! ## Reading a returned train (R6, R186) -/

/-- The header: cycle number and side. -/
structure Header where
  cycle : CycleNo
  side  : Port
  deriving DecidableEq, Repr

def readHeader (bytes : List Byte) : Option Header :=
  (readPart bytes 0 headerSize).map fun p =>
    { cycle := BitVec.ofNat 16 (u16 p 0), side := if u8 p 2 % 2 = 1 then .b else .a }

/-- A returned command frame: its mask and its payload field; unreadable with a payload length above 16. -/
def readFrame (bytes : List Byte) (i : Nat) : Option (BitVec 32 × List Byte) :=
  (readPart bytes (frameOff i) frameSize).bind fun p =>
    if 16 < u8 p 7 then none else some (BitVec.ofNat 32 (u32 p 0), p.drop 8)

/-- A fan entry of a heartbeat: step, direction, standstill flag and fault code. -/
def readFanEntry (p : List Byte) (i : Nat) : Speed × Bool × Nat :=
  let b := u8 p (4 + 2 * i)
  ({ step := b % 16, dir := if b / 16 % 2 = 1 then .minus else .plus }, b / 32 % 2 == 1, u8 p (5 + 2 * i))

/-- A readable heartbeat position: none when EMPTY (R186). -/
def readBeat (p : List Byte) : Option Heartbeat :=
  if listed .beatMark 2 (u8 p 0) = 1 then
    some {
      intake := Intake.ofCode (u8 p 1 % 4), replies := u8 p 1 / 16, downstream := u8 p 2 % 2 == 1,
      upstream := u8 p 2 / 2 % 2 == 1, turning := u8 p 2 / 4 % 2 == 1, fanCount := u8 p 3 % 16,
      doorCount := u8 p 3 / 16, fans := (List.range 4).map (readFanEntry p), doors := [u8 p 12, u8 p 13] }
  else none

/-- A readable FILLED reply slot. -/
structure Reply where
  source    : Nat
  kind      : Nat
  qualifier : Nat
  tag       : Nat
  length    : Nat
  payload   : List Byte
  deriving DecidableEq, Repr

/-- A returned reply slot: unreadable (none), FREE, or FILLED (R186). -/
def readSlot (bytes : List Byte) (frames i : Nat) : Option (Option Reply) :=
  (readPart bytes (replyOff frames i) slotSize).bind fun p =>
    if listed .slotState 2 (u8 p 0) ≠ 1 then some none
    else if 16 < u8 p 5 then none
    else some (some { source := u8 p 2, kind := u8 p 3 % 16, qualifier := u8 p 3 / 16, tag := u8 p 4,
                      length := u8 p 5, payload := p.drop 6 })

end Sys2Proof.Machine
end

