-- ==== Sys2Proof/Machine/Fold.lean ====
section
/-! DEFINITION. Folding and healing the ring (03_folding_and_healing_the_ring.md R48 to R58): detecting a fold,
the heal condition, and the ends of a reclose attempt. -/

namespace Sys2Proof.Machine

/-- The cycle timer starts with the interval in force (R1, R2). -/
def State.startCycleTimer (s : State) : State :=
  s.modRing fun g => { g with timer := some { start := s.clock, dur := g.interval } }

/-- The fold record at a fold detected in CLOSED (R49). -/
def Fold.detected (cause : FoldCause) (cycle : CycleNo) (f : Fold) : Fold :=
  { f with
    cause := cause, cycle := cycle, count := sat16 (f.count + 1), runA := 0, runB := 0, deadA := false,
    deadB := false, framePtrB := 1, slotPtrB := 1, healStart := none }

/-- A fold is detected (R48). In CLOSED the ring becomes FOLDED (R49); in ENROLLING the ENROL ends (R50); in the
other ring states a cause changes nothing. -/
def State.detectFold (cause : FoldCause) (s : State) : State :=
  match s.ring.state with
  | .closed =>
    (((s.modFold (Fold.detected cause s.ring.cycle)).journal .ringFolded 0 cause.code s.ring.cycle.toNat).setRingState
      .folded).handled .ring
  | .enrolling =>
    ((s.modFold fun f => { f with count := sat16 (f.count + 1) }).journal .ringFolded 0 cause.code
      s.ring.cycle.toNat).failEnrol .ringFolded
  | .idle | .folded | .reclosing => s

/-! ## Heal (R56) -/

/-- A station counted as turning (R56). -/
def Station.countsTurning (r : Station) : Bool := r.link != .down && r.turning

/-- The heal condition (R56). -/
def State.healCondition (s : State) : Bool :=
  s.sigA && s.sigB && s.stations.all fun r => !r.countsTurning || (r.downstream && r.upstream)

/-- The heal condition has held for the heal time in force (R56). -/
def State.healReached (s : State) : Bool :=
  s.fold.healStart.any fun t => decide (s.ring.healTime ≤ elapsed s.clock t)

/-- The evaluation at a close of a cycle in FOLDED (R56). -/
def State.healEvaluate (s : State) : State :=
  if s.ring.state ≠ .folded then s
  else if s.healCondition then
    match s.fold.healStart with
    | none => s.modFold fun f => { f with healHeld := true, healStart := some s.clock }
    | some _ => s.modFold fun f => { f with healHeld := true, recloseDue := f.recloseDue || s.healReached }
  else s.modFold fun f => { f with healHeld := false, healStart := none, recloseDue := false }

/-! ## The reclose attempt (R57, R58) -/

/-- The cycle just opened is the reclose cycle r (R57). -/
def State.beginReclose (s : State) : State :=
  ((s.setRingState .reclosing).modFold fun f => { f with
    reclosing := some s.ring.cycle, healStart := none, recloseDue := false }).askTrainWide .reclose

/-- The attempt succeeds (R58). -/
def State.recloseSuccess (s : State) : State :=
  let s := (s.setRingState .closed).modFold fun f => { f with
    cause := .none, runA := 0, runB := 0, deadA := false, deadB := false, framePtrB := 1, slotPtrB := 1,
    reclosing := none, healStart := none, recloseDue := false }
  ((s.modRing fun g => { g with kind := if g.kind = .two then .closedTwo else .one }).journal .ringClosed 0
    s.ring.cycle.toNat 0).handled .ring

/-- The attempt fails (R58). -/
def State.recloseFail (s : State) : State :=
  if s.ring.state ≠ .reclosing then s
  else
    (((s.setRingState .folded).modFold fun f => { f with
      failures := sat16 (f.failures + 1), reclosing := none, healStart := none, recloseDue := false }).journal
      .recloseFailed 0 s.ring.cycle.toNat 0).handled .ring

/-- The present cycle is the last one of the attempt, r + 2 (R57, R58). -/
def State.recloseLast (s : State) : Bool :=
  s.ring.state == .reclosing && s.fold.reclosing.any fun r => s.ring.cycle == r + 2

/-! ## Side conditions (R55) -/

/-- Set a side condition; RING STATE is set at each change (R55, R59). -/
def State.setDead (side : Port) (dead : Bool) (s : State) : State :=
  match side with
  | .a =>
    if s.fold.deadA = dead then s else State.setAttn .ringState (s.modFold fun f => { f with deadA := dead })
  | .b =>
    if s.fold.deadB = dead then s else State.setAttn .ringState (s.modFold fun f => { f with deadB := dead })

/-! ## Signal detect (R48, R58) -/

/-- The signal-detect input of a port takes a level (R45, R48, R58). -/
def State.signalChange (port : Port) (level : Bool) (s : State) : State :=
  let before := match port with | .a => s.sigA | .b => s.sigB
  if before = level then s
  else
    let s : State := match port with | .a => { s with sigA := level } | .b => { s with sigB := level }
    if level then s
    else if s.ring.state = .reclosing then s.recloseFail
    else if port = .b then s.detectFold .signalLoss
    else s

end Sys2Proof.Machine
end

