-- ==== Sys2Proof/Machine/Arrival.lean ====
section
/-! DEFINITION. What is done with a train that comes back: frames (01 R12, R13), reply slots (R14, R16), heartbeat
positions (R18; 03 R52), acceptance (R6; 03 R48, R49, R51, R58), and the parts of a lost train (R2, R6). -/

namespace Sys2Proof.Machine

/-! ## The ends of queued frames -/

/-- The originator receives NO DELIVERY or NO ANSWER for its frame (R12, R13, R15, R10). -/
def State.originEnded (o : Origin) (st : Nat) (answered : Bool) (s : State) : State :=
  let e : FrameEnding := if answered then .noAnswer else .noDelivery
  match o with
  | .page => s.pageFailed st
  | .fanStep f start => (s.fanStepEnded f start e).handled .fans
  | .fanReset f => (s.fanResetEnded f e).handled .fans
  | .beacon d mode => (s.beaconEnded d mode e).handled .doors
  | .param => s.paramFailed st (if answered then .noAnswer else .noDelivery)
  | .nobody => s

/-- The entry of a tag ends NO DELIVERY, or NO ANSWER when `answered` (R12, R15). -/
def State.endWithout (tag : Nat) (answered : Bool) (s : State) : State :=
  match s.outFrame tag with
  | none => s
  | some o => (s.endOutFrame tag).originEnded o.frame.origin o.station answered

/-- A failed try with these bits still set (R12, R13): the frame waits to be retried, or is ended at the third
try. -/
def State.failedTry (tag : Nat) (mask : BitVec 32) (s : State) : State :=
  match s.outFrame tag with
  | none => s
  | some o =>
    if o.tries < 3 then s.modOutFrame tag fun o => { o with
      mask := mask, delivery := .retry, frame := { o.frame with held := 0 } }
    else s.endWithout tag false

/-- A frame of the train in hand as it came back: its mask, or none when unreadable (R12, R13). A frame whose
entry has ended is ignored. -/
def State.frameBack (tag : Nat) (side : Port) (mask : Option (BitVec 32)) (s : State) : State :=
  match s.outFrame tag with
  | none => s
  | some o =>
    if o.delivery ≠ .inTrain side then s
    else
      match mask with
      | none => s.failedTry tag o.mask
      | some m =>
        if m &&& ~~~o.mask ≠ 0 then s.failedTry tag o.mask
        else if m = 0 then s.modOutFrame tag fun o => { o with delivery := .awaiting s.ring.cycle }
        else s.failedTry tag m

/-- One command-frame place of a train that came back, or that is lost when `back` is none (R6, R7). A train-wide frame
is sent with an empty mask, so one that comes back with a bit set is unreadable (R12). -/
def State.placeBack (side : Port) (f : SentFrame) (back : Option (BitVec 32 × List Byte)) (s : State) : State :=
  match f with
  | .wide w => (s.wideReturned w ((back.filter fun b => b.1 == 0).map (·.2))).handled .link
  | .queued tag => s.frameBack tag side (back.map (·.1))

/-- Every command-frame place of a sent train in order, with what came back in it. -/
def State.framesBack (side : Port) (t : SentTrain) (back : Nat → Option (BitVec 32 × List Byte)) (s : State) : State :=
  t.frames.zipIdx.foldl (fun s x => s.placeBack side x.1 (back x.2)) s

/-! ## Reply slots (R14, R16) -/

/-- A matched reply goes to its originator (R14). PARAM DATA carries the values of the words done, PARAM ACK their
number (R186). Three points are the model's choice: the words done of an odd PARAM DATA length are rounded down (log 104);
the length of every other reply is not compared with its layout, and its bytes are read from the 16-byte field as they
stand, the words done of a PARAM ACK of length 0 too (log 107); the qualifier of a BASE PAGE and of a BEACON ACK is not
read (log 108). -/
def State.deliverReply (o : OutFrame) (r : Reply) (s : State) : State :=
  match o.frame.origin with
  | .page => (s.pageArrived o.station r.kind r.qualifier r.payload).handled .link
  | .fanStep f start => (s.fanStepEnded f start (.reply (listed .stepAck 3 r.qualifier))).handled .fans
  | .fanReset f => (s.fanResetEnded f (.reply (listed .resetAck 2 r.qualifier))).handled .fans
  | .beacon d mode => (s.beaconEnded d mode (.reply r.qualifier)).handled .doors
  | .param =>
    if r.kind = 6 then
      s.paramReply o.station (listed .paramResult 3 r.qualifier) (r.length / 2)
        ((List.range (r.length / 2)).map fun i => u16 r.payload (2 * i))
    else s.paramReply o.station (listed .paramResult 3 r.qualifier) (u8 r.payload 0) []
  | .nobody => s

/-- The tag value that stands for NONE (R186). -/
def tagNone : Nat := 0xFF

/-- A FILLED reply slot (R14, R16). -/
def State.replyBack (r : Reply) (s : State) : State :=
  if r.tag = tagNone ∧ r.kind = 5 then
    if s.reachable r.source then s.handleSamples r.source r.qualifier r.length r.payload
    else s.chargeStation r.source
  else
    match s.outFrame r.tag with
    | none => s.chargeStation r.source
    | some o =>
      if o.station = r.source ∧ o.frame.kind.answeredBy r.kind then (s.endOutFrame r.tag).deliverReply o r
      else s.chargeStation r.source

/-- A shared reply slot of an accepted train, with the station it was assigned to (R14, R16). -/
def State.slotBack (assigned : Nat) (slot : Option (Option Reply)) (s : State) : State :=
  match slot with
  | none => s.chargeStation assigned
  | some none => s
  | some (some r) => s.replyBack r

/-! ## Heartbeat positions (R18, R52) -/

/-- The intake state and pending reply count of a good heartbeat are recorded (R10, R18). -/
def State.recordIntake (k : Nat) (h : Heartbeat) (s : State) : State :=
  s.modEntry k fun e => { e with intake := h.intake, replies := h.replies }

/-- A heartbeat position while one train runs (R18). -/
def State.beatOne (side : Port) (k : Nat) (beat : Option (Option Heartbeat)) (s : State) : State :=
  match s.station k, beat with
  | some _, some (some h) => ((s.recordIntake k h).goodHeartbeat k side h).handled .link
  | some _, some none => (s.missedCycle k).handled .link
  | some _, none => ((s.chargeStation k).missedCycle k).handled .link
  | none, some (some _) => s.chargeStation k
  | none, some none => s
  | none, none => s.chargeStation k

/-- A heartbeat position while two trains run in the cycle (R52): the first good heartbeat of a station is
used. -/
def State.beatTwo (side : Port) (k : Nat) (beat : Option (Option Heartbeat)) (s : State) : State :=
  match s.station k, beat with
  | some _, some (some h) =>
    if s.ring.heard.contains k then s
    else
      (((s.modRing fun g => { g with heard := g.heard ++ [k] }).recordIntake k h).goodHeartbeat k side h).handled .link
  | some _, some none => s
  | some _, none => s.chargeStation k
  | none, some (some _) => s.chargeStation k
  | none, some none => s
  | none, none => s.chargeStation k

/-- The heartbeat positions of an accepted train in address order: by R18 while one train runs, as when the train of r + 1 or
r + 2 has closed the ring at its arrival (R57), and by R52 while two run. A train of r + 1 or r + 2 that has failed the
attempt at A-receive has its positions handled by R52 (R58); that R52 serves too for such a train which arrives after a loss
of signal has failed the attempt is the model's choice (log 114). -/
def State.beatsBack (side : Port) (bytes : List Byte) (frames : Nat) (s : State) : State :=
  forEach ((List.range 24).map (· + 1)) (fun k s =>
    let beat := (readPart bytes (beatOff frames k) beatSize).map readBeat
    if s.ring.kind = .one then s.beatOne side k beat else s.beatTwo side k beat) s

/-! ## Acceptance (R6, R48, R51, R58) -/

def Ring.train (g : Ring) : Port → Option SentTrain
  | .a => g.trainA
  | .b => g.trainB

/-- Mark the train of a side as accepted. -/
def State.markAccepted (side : Port) (s : State) : State :=
  s.modRing fun g =>
    match side with
    | .a => { g with trainA := g.trainA.map fun t => { t with accepted := true } }
    | .b => { g with trainB := g.trainB.map fun t => { t with accepted := true } }

/-- The parts of an accepted train: first its command frames, then its heartbeat positions, then its reply slots
(R26; log 18). They are handled to the end when the ring becomes IDLE meanwhile: the train has arrived and is accepted
(R6, log 17). -/
def State.handleTrain (side : Port) (t : SentTrain) (bytes : List Byte) (s : State) : State :=
  let n := t.frames.length
  let s := (s.framesBack side t (readFrame bytes)).beatsBack side bytes n
  (List.range 16).foldl (fun s i => s.slotBack (t.assign.getD i 0) (readSlot bytes n i)) s

/-- The train of a side is accepted: its loss run falls to 0 in CLOSED and ENROLLING, a dead side becomes LIVE,
and its parts are handled (R6, R47, R55). -/
def State.acceptTrain (side : Port) (t : SentTrain) (bytes : List Byte) (s : State) : State :=
  let s := (s.markAccepted side).setDead side false
  let s :=
    if s.ring.state = .closed ∨ s.ring.state = .enrolling then s.modFold fun f => { f with runA := 0 } else s
  (s.handled .ring).handleTrain side t bytes

/-- A late train is discarded whole and counted (R6). -/
def State.lateTrain (s : State) : State := s.modRing fun g => { g with late := sat16 (g.late + 1) }

/-- The side of a train: the one its header shows; with an unreadable header the side of the port while two trains
run, or none once the train of that side has been accepted (R51), and otherwise side A, the one side sent (log 13). -/
def State.sideArrived (s : State) (h : Option Header) (port : Port) : Option Port :=
  match h with
  | some h => some h.side
  | none =>
    if s.ring.kind = .two ∨ s.ring.kind = .closedTwo then
      if (s.ring.train port).any (·.accepted) then none else some port
    else some .a

/-- The train can still be accepted as the train of its side in the present cycle (R6, R51). -/
def State.acceptable (s : State) (h : Option Header) (side : Port) : Option SentTrain :=
  if s.ring.phase = .running ∧ (h.all fun h => h.cycle == s.ring.cycle) then
    (s.ring.train side).filter fun t => !t.accepted
  else none

/-- Accept the train found acceptable, or discard the train as late. -/
def State.acceptOrLate (found : Option SentTrain) (side : Port) (bytes : List Byte) (s : State) : State :=
  match found with
  | some t => s.acceptTrain side t bytes
  | none => s.lateTrain

/-- The train carries the number of a cycle that was not opened since the ring last left IDLE: it was in flight when the
ring became IDLE, or at the reset (R1, log 13). -/
def Ring.beforeIdle (g : Ring) (h : Option Header) : Bool :=
  h.any fun h => decide (g.opened ≤ (g.cycle - h.cycle).toNat)

/-- A side A train at A-receive belongs to cycle r + 1 or r + 2 of the attempt in progress (R58). -/
def State.turnsAttempt (s : State) (h : Option Header) : Bool :=
  match s.fold.reclosing with
  | none => false
  | some r =>
    match h with
    | some h => h.cycle == r + 1 || h.cycle == r + 2
    | none => s.ring.kind == .recloseOne

/-- What the arrival of a train does to the ring before the train is accepted or late: a side A train at A-receive in
CLOSED or ENROLLING is a fold (R48); in RECLOSING an accepted one at B-receive closes the ring, and a turned one of cycle
r + 1 or r + 2 fails the attempt (R58). That the ring is closed or the attempt has failed, with its record, before the
parts of this train are handled is the model's choice (log 76). -/
def State.arrivalMoves (h : Option Header) (side port : Port) (accepted : Bool) (s : State) : State :=
  match s.ring.state with
  | .idle => s
  | .closed => if side = .a ∧ port = .a then s.detectFold .turnedTrain else s
  | .enrolling => if side = .a ∧ port = .a then s.detectFold .turnedTrain else s
  | .folded => s
  | .reclosing =>
    if side = .a ∧ port = .b ∧ accepted then s.recloseSuccess
    else if side = .a ∧ port = .a ∧ s.turnsAttempt h then s.recloseFail
    else s

/-- A train arrives at a receive port (R1, R6, R48, R51, R58). Whether it can be accepted is judged as it arrives; a train
that shows a fold is accepted or late after the fold (R48, log 17); one of no side is late (R51). -/
def State.arrive (port : Port) (bytes : List Byte) (s : State) : State :=
  let h := readHeader bytes
  if s.ring.state = .idle ∨ s.ring.beforeIdle h then s
  else
    match s.sideArrived h port with
    | none => s.lateTrain
    | some side =>
      let found := s.acceptable h side
      (s.arrivalMoves h side port found.isSome).acceptOrLate found side bytes

/-! ## Lost trains (R2, R6, R51) -/

/-- The train of a side has been sent in this cycle and not accepted. -/
def Ring.lostTrain (g : Ring) (side : Port) : Bool := (g.train side).any fun t => !t.accepted

/-- The command frames of a lost train are treated as unreadable (R6, R13). -/
def State.loseFrames (side : Port) (s : State) : State :=
  match s.ring.train side with
  | none => s
  | some t => if t.accepted then s else s.framesBack side t fun _ => none

end Sys2Proof.Machine
end

