-- ==== Sys2Proof/Machine/Cycle.lean ====
section
/-! DEFINITION. The cycle (01 R2, R10, R15; 02 R28, R37; 03 R51, R56 to R58): the close of the cycle that is ending
and the opening of the next, each in the parts that single commands may bring about (log 6). -/

namespace Sys2Proof.Machine

/-! ## The close: trains not received -/

def State.raiseRun (side : Port) (s : State) : State :=
  s.modFold fun f =>
    match side with
    | .a => { f with runA := min 3 (f.runA + 1) }
    | .b => { f with runB := min 3 (f.runB + 1) }

def State.clearRun (side : Port) (s : State) : State :=
  s.modFold fun f =>
    match side with
    | .a => { f with runA := 0 }
    | .b => { f with runB := 0 }

/-- The lost-train count is raised by 1 for a side whose train was not received (R2, R51). -/
def State.countLost (side : Port) (s : State) : State :=
  if s.ring.lostTrain side then s.modRing fun g => { g with lost := sat16 (g.lost + 1) } else s

/-- The loss run of a side at a close in FOLDED or RECLOSING (R51, R57). -/
def State.judgeRun (side : Port) (s : State) : State :=
  if s.ring.lostTrain side then s.raiseRun side else s.clearRun side

/-- The loss runs at a close (R47, R49, R51, R57): in CLOSED and ENROLLING run A counts lost trains; the cycle in
which a fold was detected raises none; a reclose cycle with one train leaves run B. -/
def State.judgeRuns (s : State) : State :=
  match s.ring.kind with
  | .one =>
    if (s.ring.state = .closed ∨ s.ring.state = .enrolling) ∧ s.ring.lostTrain .a then s.raiseRun .a else s
  | .two => (s.judgeRun .a).judgeRun .b
  | .closedTwo => s
  | .recloseOne => s.judgeRun .a

/-- A side whose loss run has reached 3 in FOLDED becomes DEAD (R55). -/
def State.judgeDead (s : State) : State :=
  if s.ring.state = .folded ∧ (s.ring.kind = .two ∨ s.ring.kind = .recloseOne) then
    let s := if s.fold.runA = 3 then s.setDead .a true else s
    if s.fold.runB = 3 then s.setDead .b true else s
  else s

/-- Loss run A raised to 3 in CLOSED or ENROLLING is a fold (R48). -/
def State.judgeTrainsLost (s : State) : State :=
  if (s.ring.state = .closed ∨ s.ring.state = .enrolling) ∧ s.ring.lostTrain .a ∧ s.fold.runA = 3 then
    s.detectFold .trainsLost
  else s

/-- The enrolled stations that missed the cycle are told to the link monitor (R18, R52): all of them when the one
train was lost, and while two trains run those without a used heartbeat. That they are told by ascending address is the
model's choice (log 62). -/
def State.tellMissed (lost : Bool) (s : State) : State :=
  let missed := match s.ring.kind with
    | .one => if lost then s.stationNumbers else []
    | .two | .closedTwo | .recloseOne => s.stationNumbers.filter fun k => !s.ring.heard.contains k
  forEach missed (fun k s => (s.missedCycle k).handled .link) s

/-- The first part of a close: lost trains are counted and their parts treated as unreadable, and the link monitor
is told of the stations that missed the cycle (R2, R6, R51, R52). It is made once in a cycle. That the frames of a lost
train A are treated before those of a lost train B (log 78), and that a missed cycle is told before the page timeout that
falls due at the same close (log 73), is the model's choice. -/
def State.beginClose (s : State) : State :=
  if s.ring.phase ≠ .running then s
  else
    let lost := s.ring.lostTrain .a
    let s := s.modRing fun g => { g with phase := .closing }
    let s := (((s.countLost .a).countLost .b).judgeRuns.judgeDead.handled .ring).judgeTrainsLost
    if s.ring.state = .idle then s
    else
      let s := (s.loseFrames .a).loseFrames .b
      if s.ring.state = .idle then s else s.tellMissed lost

/-! ## The close: what falls due (R15, R28, R37, R56, R58) -/

/-- The reply limit of an entry has run out at the close of cycle `now` (R15). -/
def OutFrame.limitDue (now : CycleNo) (o : OutFrame) : Bool :=
  match o.delivery with
  | .awaiting take => decide (5 ≤ (now - take).toNat)
  | .inTrain _ => false
  | .retry => false

/-- The reply limit of one tag, if it has run out (R15). -/
def State.replyLimit (tag : Nat) (s : State) : State :=
  if (s.outFrame tag).any (OutFrame.limitDue s.ring.cycle) then s.endWithout tag true else s

/-- The reply limits that fall due at this close (R2, R15). That they are ended in the order of the outstanding-frame
table is the model's choice (log 61). -/
def State.replyLimits (s : State) : State :=
  forEach (s.ring.outstanding.map (·.tag)) State.replyLimit s

/-- The page timeout of a station, if it falls due (R28). -/
def State.pageTimedOut (st : Nat) (s : State) : State :=
  if (s.station st).any (Station.pageDue s.ring.cycle) then (s.stationDown st .pageTimeout).handled .link else s

/-- The pending timeout of a station, if it falls due (R37). -/
def State.pendingTimedOut (st : Nat) (s : State) : State :=
  if (s.station st).any (Station.pendingDue s.ring.cycle) then (s.stationDown st .silence).handled .link else s

/-- The attempt fails when the close of cycle r + 2 is reached without success (R58). -/
def State.recloseExpired (s : State) : State := if s.recloseLast then s.recloseFail else s

/-- The rest of a close: reply limits, station timeouts, the end of a reclose attempt, the heal condition. That the
timeouts come before the heal condition, and that the heal condition is evaluated at the close of the very cycle in
which the fold was detected too, is the model's choice (log 54, log 55). So is that the reply limits come before the
timeouts (log 87), that every page timeout comes before every pending timeout, each by ascending address (log 72), and
that an attempt fails after all else of the close of r + 2 but the heal condition (log 75). -/
def State.finishClose (s : State) : State :=
  if s.ring.state = .idle then s
  else
    let s := s.replyLimits
    let s := forEach s.stationNumbers State.pageTimedOut s
    let s := forEach s.stationNumbers State.pendingTimedOut s
    s.recloseExpired.healEvaluate.handled .ring

/-! ## The opening (R1, R2, R10, R57) -/

/-- The number of the cycle is raised, the timer restarts with the interval in force, and rests end (R1, R2). The cycles
opened since IDLE are counted as far as a cycle number can tell them apart (log 13). -/
def State.enterOpening (s : State) : State :=
  (State.endRests ((s.modRing fun g => { g with
    phase := .opening, cycle := g.cycle + 1, heard := [], trainA := none, trainB := none,
    opened := min (g.opened + 1) 65536 }).startCycleTimer)).handled .ring

/-- A held frame is ended at the opening of the 20th successive cycle (R10). -/
def QFrame.heldOut (f : QFrame) : Bool := decide (19 ≤ f.held)

/-- End the held retries of a station that are held for the 20th time, and so for the head of its queue (R10). -/
def State.endHeld (st : Nat) (s : State) : State :=
  if s.admits st then s
  else
    let tags := (s.ring.outstanding.filter fun o =>
      o.station == st && o.delivery == .retry && o.frame.heldOut).map (·.tag)
    let s := forEach tags (fun t s => s.endWithout t false) s
    match (s.entry st).queue with
    | [] => s
    | f :: rest =>
      if f.heldOut then ((s.modEntry st fun e => { e with queue := rest }).handled .ring).originEnded f.origin st false
      else s

/-- Count one opening at which the frames of a station are held, or none at which they are not (R10). -/
def State.countHeld (st : Nat) (s : State) : State :=
  let held := !s.admits st
  let count (f : QFrame) : QFrame := { f with held := if held then f.held + 1 else 0 }
  let s := s.modEntry st fun e => { e with
    queue := match e.queue with | [] => [] | f :: rest => count f :: rest }
  s.modRing fun g => { g with outstanding := g.outstanding.map fun o =>
    if o.station = st ∧ o.delivery = .retry then { o with frame := count o.frame } else o }

/-- Frames that were refused FULL, or whose last frame ended, are offered again (R8, R28, R101, R117, R146,
R178). The order is the model's choice (log 15): the pages by station, each fan's FAN STEP and FAN RESET by fan number,
the grants by feeder, the beacons by door, the transfers by station. -/
def State.offerAgain (s : State) : State :=
  let s := forEach s.stationNumbers (fun st s =>
    if (s.station st).any fun r => r.pages.offer then s.offerPage st else s) s
  let s := forEach (List.range 48) (fun f s => (s.compareFan f).offerReset f) s
  let s := forEach (List.range 4) State.grants s
  forEach s.stationNumbers State.offerParam s.compareBeacons

/-- Under which rules the cycle that opens runs (R1, R51, R57). -/
def State.openKind (s : State) : CycleKind :=
  match s.ring.state with
  | .idle | .enrolling | .closed => .one
  | .folded => .two
  | .reclosing => if s.fold.reclosing = some s.ring.cycle then .two else .recloseOne

/-- The attempt that R56 has begun starts with this cycle (R57). -/
def State.startAttempt (s : State) : State :=
  if s.fold.recloseDue && s.ring.state == .folded then s.beginReclose.handled .ring else s

/-- Build and send the trains of the cycle being opened, which then runs (R2, R51, R57). The frames held at this
opening are counted once the frames that wait to be offered again have been offered (R10, log 15). -/
def State.sendTrains (s : State) : State :=
  let s := forEach ((List.range 24).map (· + 1)) State.countHeld s.startAttempt.offerAgain
  (s.modRing fun g => { g with kind := s.openKind }).buildTrains.modRing fun g => { g with phase := .running }

/-- The rest of an opening. That the held frames of several stations are ended by ascending address, a station's retries
before the head of its queue, is the model's choice (log 50), and so is that a PAGE REQUEST ended here is offered again
at this same opening, before its train is built (log 63). -/
def State.finishOpening (s : State) : State :=
  let all := (List.range 24).map (· + 1)
  (forEach all State.endHeld s).sendTrains

/-! ## What a command may bring about -/

/-- The cycle timer runs and has run out, or the close it started is not yet complete (R2, log 6). -/
def State.closeDue (s : State) : Bool :=
  s.ring.state != .idle && (s.ring.phase != .running || timerDue s.clock s.ring.timer)

/-- The close has not yet been followed by the opening. -/
def State.beforeOpening (s : State) : Bool := s.closeDue && s.ring.phase != .opening

/-- Complete the close and begin the opening, unless it has begun or the ring has become IDLE. -/
def State.toOpening (s : State) : State :=
  if s.ring.phase = .opening then s
  else
    let s := s.beginClose.finishClose
    if s.ring.state = .idle then s else s.enterOpening

/-- CYCLE_TIMER_EXPIRY: whatever of the close and the opening is still to come (R2). -/
def State.cycleExpiry (s : State) : State :=
  if s.closeDue then
    let s := s.toOpening
    if s.ring.state = .idle then s else s.finishOpening
  else s

/-- A thing that falls due at a close is brought about there when it stands due (log 5, log 6). -/
def State.atClose (due : State → Bool) (act : State → State) (s : State) : State :=
  if s.beforeOpening && due s then act s.beginClose else s

/-- The frame of this tag awaits its reply and its limit runs out at this close. -/
def State.replyLimitDue (tag : Nat) (s : State) : Bool := (s.outFrame tag).any (OutFrame.limitDue s.ring.cycle)

/-- A rest that ends at the next opening, when the cycle number has been raised by 1 (R1). -/
def State.restEnds (tag : Nat) (s : State) : Bool :=
  s.ring.resting.any fun r => r.1 == tag && restOver (s.ring.cycle + 1) r.2

/-- A held frame of this station is ended at the coming opening (R10). -/
def State.heldEnds (st : Nat) (s : State) : Bool :=
  !s.admits st &&
    (((s.entry st).queue.head?).any QFrame.heldOut ||
      s.ring.outstanding.any fun o => o.station == st && o.delivery == .retry && o.frame.heldOut)

/-- TAG_REST_END (R1): the opening begins and ends every rest that has lasted 8 cycles. -/
def State.tagRestEnd (tag : Nat) (s : State) : State :=
  if s.beforeOpening && s.restEnds tag then s.toOpening else s

/-- HELD_FRAME_EXPIRY (R10): the opening begins and the frames of this station that are held for the 20th time are
ended. -/
def State.heldExpiry (st : Nat) (s : State) : State :=
  if s.closeDue && s.heldEnds st then
    let s := s.toOpening
    if s.ring.state = .idle then s else s.endHeld st
  else s

/-! ## Leaving IDLE (R1, R48) -/

/-- The ring leaves IDLE: the timer starts and the first train is sent at once (R1, log 32). -/
def State.leaveIdle (s : State) : State := if s.ring.state = .idle then s else s.enterOpening.sendTrains

end Sys2Proof.Machine
end

