-- ==== Sys2Proof/Machine/Image.lean ====
section
/-! DEFINITION. The status image (10 R172; R22, R44, R59, R79, R97, R122, R133, R148, R163; 12 R182, R185): the
entries of the eight tables and their updates between the begin and end counters. -/

namespace Sys2Proof.Machine

/-! ## Entries (R185) -/

/-- A NONE record shows its kind 0xFF and nothing else (R181). -/
def noneEntry (size : Nat) : List Byte := padTo size [0xFF]

/-- The stations of a side among the enrolled ones (R59). -/
def State.sideCount (s : State) (side : Port) : Nat := (s.stationNumbers.filter fun k => s.sideOf k == side).length

/-- Milliseconds counted since the heal start, 0 when it is absent (R59). -/
def State.healCounted (s : State) : Nat :=
  match s.fold.healStart with
  | none => 0
  | some t => elapsed s.clock t

def State.ringEntry (s : State) : List Byte :=
  padTo 128 ([byte s.ring.state.code, byte s.fold.cause.code, byte (boolCode s.fold.deadA),
    byte (boolCode s.fold.deadB), byte s.fold.runA, byte s.fold.runB,
    byte (flagByte [s.sigA, s.sigB, s.fold.healHeld]), 0] ++
    le16 s.ring.interval ++ le16 s.ring.healTime ++ le16 s.ring.cycle.toNat ++
    [byte s.ring.pool.length, byte (s.ring.outstanding.filter fun o => o.delivery == .retry).length] ++
    le16 s.ring.lost ++ le16 s.ring.late ++ le16 s.ring.unattributed ++ le16 s.fold.cycle.toNat ++
    le32 s.healCounted ++ le16 ((s.fold.reclosing.getD 0).toNat) ++ le16 s.fold.count ++ le16 s.fold.failures ++
    [byte (s.sideCount .a), byte (s.sideCount .b), byte (s.stations.filter Station.countsTurning).length])

/-- Seconds remaining of the plan timer or the control timer (R163). -/
def State.planSeconds (s : State) : Nat := secondsLeft s.clock (s.plan.planTimer.or s.plan.controlTimer)

def State.regimeEntry (s : State) : List Byte :=
  let p := s.plan
  padTo 64 ([byte p.regime.code, byte p.tunnel, byte p.smokeCount, byte (flagByte [p.smokeHold, p.settling]),
    byte p.normalDir.code, byte p.normalStep, byte p.fireZone, byte p.smokeDir.code,
    byte (optCode p.excluded[0]?), byte (optCode p.excluded[1]?), byte p.fireCount, byte s.candidatesNow,
    byte p.picked.length, byte p.kept, byte p.source.code, 0] ++
    sle16 p.measured ++ sle16 p.w ++ le16 s.planSeconds)

def Feeder.entry (k : Feeder) : List Byte :=
  padTo 16 [byte k.allowance, byte (k.pendingLow.getD 0), byte k.energizing.length,
    byte (k.class1.length + k.class0.length), byte k.class1.length]

/-- The first number of a run of devices, none for an empty run (log 33). -/
def firstOf (first count : Nat) : Nat := if count = 0 then 0xFF else first

/-- The fields of a station that the image entry and the snapshot of SENSE STATION share (R42, R44, R185). An absent base page shows
0 in its fields, an absent last heartbeat side A and cycle 0: the model's choice (log 53). -/
def Station.fields (st : Nat) (depth : Nat) (r : Station) : List Byte :=
  let b := r.base.getD { kind := 0, fans := 0, channels := 0, doors := 0, lastParam := 0, chainage := 0 }
  let d := r.description.getD
    { firstFan := 0, fans := [], firstChannel := 0, channels := [], firstDoor := 0, doors := [] }
  [byte st, byte r.link.code, byte r.cause.code,
    byte (flagByte [r.wasDown, r.partFlag, r.mismatch, r.downstream, r.upstream, r.turning]), byte r.missRun,
    byte r.linkDowns] ++ le16 r.errors ++
    [byte b.kind, byte b.fans, byte b.channels, byte b.doors, byte b.lastParam,
      byte (boolCode (r.heard.any fun h => h.1 == .b))] ++ le16 b.chainage ++
    le16 ((r.heard.map Prod.snd).getD (0 : CycleNo)).toNat ++
    [byte (firstOf d.firstFan d.fans.length), byte d.fans.length,
      byte (firstOf d.firstChannel d.channels.length), byte d.channels.length,
      byte (firstOf d.firstDoor d.doors.length), byte d.doors.length, byte depth]

/-- The entry of a station address; an address without a record shows UNKNOWN and 0 (R23, R44). -/
def State.stationEntry (s : State) (st : Nat) : List Byte :=
  match s.station st with
  | none => List.replicate 32 0
  | some r => padTo 32 (r.fields st (s.entry st).queue.length)

def Channel.entry (c : Channel) : List Byte :=
  [byte c.kind.code, byte c.station, byte c.index, byte (optCode c.zone), byte c.quality.code,
    byte (flagByte [c.clamped, c.skip, c.capture.isSome]), byte ((c.capture.map (·.count)).getD 0), 0] ++
    sle16 c.value ++ le16 c.lastRaw ++ le32 c.lastFeed.toNat

/-- Milliseconds remaining to the hold expiry of a HELD kind, 0 otherwise (R97). -/
def ZoneKind.holdLeft (now : Clock) (hold : Nat) (k : ZoneKind) : Nat :=
  match k.vstate, k.heldSince with
  | .held, some t => 1000 * hold - elapsed now t
  | _, _ => 0

def ZoneKind.fields (k : ZoneKind) : List Byte := byte (k.members.length % 16 + 16 * k.vstate.code) :: sle16 k.value

def Zone.entry (now : Clock) (z : Zone) : List Byte :=
  padTo 32 ([byte (flagByte [z.configured, z.latch]), byte z.level, byte z.fallback, byte z.co.level,
    byte z.no2.level, byte z.vis.level] ++ z.co.fields ++ z.no2.fields ++ z.vis.fields ++ z.airv.fields ++
    le24 (z.co.holdLeft now z.hold) ++ le24 (z.no2.holdLeft now z.hold) ++ le24 (z.vis.holdLeft now z.hold) ++
    le24 (z.airv.holdLeft now z.hold))

def Fan.entry (f : Fan) : List Byte :=
  [byte f.kind.code, byte (flagByte [f.reversible, f.doorReq, f.slotHeld, f.standstill, f.plannerStart.isSome]),
    byte f.station, byte f.index, byte f.feeder, byte (optCode f.zone), byte (optCode f.group),
    byte f.source.code, byte f.requested.step, byte f.requested.dir.code, byte f.commanded.step,
    byte f.commanded.dir.code, byte f.actual.step, byte f.actual.dir.code, byte f.cap, byte f.faultCode,
    byte f.state.code, byte f.cause.code, byte f.notReady, byte (optCode (f.part.map (·.slot))), 0, 0, 0, 0] ++
    le32 f.runMinutes ++ le32 ((f.plannerStart.getD 0).toNat)

def Door.entry (now : Clock) (p : Planner) (d : Door) : List Byte :=
  [byte d.kind.code, byte d.station, byte d.index, byte (optCode d.zone), byte d.state.code, byte d.reported.code,
    byte (optCode d.passage), byte (flagByte [d.calling, d.smoke, d.source == .manual])] ++
    le16 (secondsLeft now d.holdTimer) ++ le16 (secondsLeft now d.runOnTimer) ++
    [byte d.caps.length, byte (wantedMode p d).code, byte ((d.confirmed.map BeaconMode.code).getD 0xFF),
      byte (optCode d.signal)]

/-! ## The tables (R185) -/

/-- The eight tables in counter order (R172). -/
inductive Table where
  | ring | regime | feeders | stations | channels | zones | fans | doors
  deriving DecidableEq, Repr

def Table.all : List Table := [.ring, .regime, .feeders, .stations, .channels, .zones, .fans, .doors]

def Table.index : Table → Nat
  | .ring => 0 | .regime => 1 | .feeders => 2 | .stations => 3 | .channels => 4 | .zones => 5 | .fans => 6
  | .doors => 7

def Table.base : Table → Nat
  | .ring => 0x2200 | .regime => 0x2280 | .feeders => 0x22C0 | .stations => 0x2300 | .channels => 0x2600
  | .zones => 0x2C00 | .fans => 0x2E00 | .doors => 0x3400

def Table.size : Table → Nat
  | .ring => 128 | .regime => 64 | .feeders => 16 | .stations => 32 | .channels => 16 | .zones => 32 | .fans => 32
  | .doors => 16

def Table.count : Table → Nat
  | .ring => 1 | .regime => 1 | .feeders => 4 | .stations => 24 | .channels => 96 | .zones => 16 | .fans => 48
  | .doors => 32

/-- Entry k of a table as the part's state gives it. -/
def State.imageEntry (s : State) (t : Table) (k : Nat) : List Byte :=
  match t with
  | .ring => s.ringEntry
  | .regime => s.regimeEntry
  | .feeders => (s.feeder k).entry
  | .stations => s.stationEntry (k + 1)
  | .channels => match s.channel k with | none => noneEntry 16 | some c => c.entry
  | .zones => (s.zone k).entry s.clock
  | .fans => match s.fan k with | none => noneEntry 32 | some f => f.entry
  | .doors => match s.door k with | none => noneEntry 16 | some d => d.entry s.clock s.plan

/-! ## Who keeps what (R22, R44, R59) -/

/-- The tables a writer keeps. -/
def Writer.tables : Writer → List Table
  | .ring => [.ring, .stations]
  | .link => [.stations]
  | .channels => [.channels]
  | .zones => [.zones]
  | .fans => [.fans]
  | .feeders => [.feeders]
  | .doors => [.doors]
  | .planner => [.regime]

/-- What a writer writes of an entry: offsets in the entry and the bytes there. Of a station's entry the ring controller keeps
the error count and the queue depth, and the link monitor the rest (R22, R44); every other entry has one writer. -/
def Writer.pieces (w : Writer) (t : Table) (e : List Byte) : List (Nat × List Byte) :=
  match t with
  | .stations =>
    if w = .ring then [(6, (e.drop 6).take 2), (24, (e.drop 24).take 1)]
    else [(0, e.take 6), (8, (e.drop 8).take 16), (25, e.drop 25)]
  | .ring | .regime | .feeders | .channels | .zones | .fans | .doors => [(0, e)]

/-- What of an entry brings an update about when it changes. The ring entry is rewritten at each opening of a cycle, which
changes the cycle number, at each change of ring state or setting and at each change of a fold field (R22, R59), and not
for its free tags, retries and three counts in bytes 14 to 21 alone; every other entry whenever what its writer shows there
changes. -/
def Writer.watched (w : Writer) (t : Table) (e : List Byte) : List (Nat × List Byte) :=
  match t with
  | .ring => [(0, e.take 14), (22, e.drop 22)]
  | .regime | .feeders | .stations | .channels | .zones | .fans | .doors => w.pieces t e

/-- What a table shows stands as it stood: no entry of it can have changed. -/
def Table.untouched (old new : Shown) : Table → Bool
  | .ring => old.ring == new.ring && old.fold == new.fold && old.sigA == new.sigA && old.sigB == new.sigB &&
      old.stations == new.stations
  | .regime => old.plan == new.plan && old.fans == new.fans
  | .feeders => old.feeders == new.feeders
  | .stations => old.stations == new.stations && old.ring.entries == new.ring.entries
  | .channels => old.channels == new.channels
  | .zones => old.zones == new.zones
  | .fans => old.fans == new.fans
  | .doors => old.doors == new.doors && old.plan == new.plan

/-! ## Updates (R172) -/

/-- The state with what its tables are made of as it stood at some moment of the step. The clock is that of the state, so
that the passing of time alone changes no entry (log 8). -/
def State.withShown (b : Shown) (s : State) : State :=
  { s with
    ring := b.ring, fold := b.fold, sigA := b.sigA, sigB := b.sigB, stations := b.stations, channels := b.channels,
    zones := b.zones, fans := b.fans, feeders := b.feeders, doors := b.doors, plan := b.plan }

/-- Entry k of a table as it was to be shown at that moment. -/
def State.entryAt (s : State) (b : Shown) (t : Table) (k : Nat) : List Byte := (s.withShown b).imageEntry t k

/-- An entry whose remaining time is rewritten once per second (R97, R148, R163). -/
def State.entryRunning (s : State) (t : Table) (k : Nat) : Bool :=
  match t with
  | .zones =>
    let z := s.zone k
    z.co.vstate == .held || z.no2.vstate == .held || z.vis.vstate == .held || z.airv.vstate == .held
  | .doors => (s.door k).any fun d => d.holdTimer.isSome || d.runOnTimer.isSome
  | .regime => s.plan.planTimer.isSome || s.plan.controlTimer.isSome
  | .ring | .feeders | .stations | .channels | .fans => false

/-- One event of a writer: what its tables were made of at the end of the event before it and at its own end. -/
structure ImageUpdate where
  writer : Writer
  force  : Force
  before : Shown
  after  : Shown
  deriving DecidableEq, Repr

/-- What the tables of a writer were made of at the end of its last event among `seen`, the latest of them first; at the
beginning of the step when there is none. -/
def lastShown (start : Shown) (w : Writer) (seen : List Handled) : Shown :=
  ((seen.find? fun e => e.writer == w).map (·.shown)).getD start

/-- The events of a step in order, each with the moment up to which its writer had brought its tables. -/
def imageUpdatesFrom (start : Shown) : List Handled → List Handled → List ImageUpdate
  | _, [] => []
  | seen, e :: es =>
    { writer := e.writer, force := e.force, before := lastShown start e.writer seen, after := e.shown } ::
      imageUpdatesFrom start (e :: seen) es

def Writer.all : List Writer := [.ring, .link, .channels, .zones, .fans, .feeders, .doors, .planner]

/-- The events of the step from `old` to `s`: those recorded, and at its end one for each writer, for what it has changed
since (log 8). -/
def State.imageUpdates (old s : State) : List ImageUpdate :=
  imageUpdatesFrom old.shown []
    (s.events.drop old.events.length ++ Writer.all.map fun w => { writer := w, force := .none, shown := s.shown })

/-- An entry has changed in what brings its writer to rewrite it. -/
def State.entryChanged (s : State) (u : ImageUpdate) (t : Table) (k : Nat) : Bool :=
  u.writer.watched t (s.entryAt u.before t k) != u.writer.watched t (s.entryAt u.after t k)

/-- The entries of a table that an event makes its writer write. -/
def State.changedEntries (s : State) (u : ImageUpdate) (t : Table) : List Nat :=
  match u.force with
  | .whole => List.range t.count
  | .running => (List.range t.count).filter fun k => (s.withShown u.after).entryRunning t k || s.entryChanged u t k
  | .none =>
    if t.untouched u.before u.after then [] else (List.range t.count).filter (s.entryChanged u t)

/-- Lay the pieces of an entry at their places. -/
def writePieces (base : Nat) (m : List Host.Cell) (ps : List (Nat × List Byte)) : List Host.Cell :=
  ps.foldl (fun m p => Memory.writeBytes m (base + p.1) p.2) m

/-- One update of a table: begin is raised, the entries are written, end is raised (R172). -/
def State.updateTable (s : State) (u : ImageUpdate) (x : List Host.Cell × List (BitVec 32)) (t : Table) :
    List Host.Cell × List (BitVec 32) :=
  let entries := s.changedEntries u t
  if entries = [] then x
  else
    let n := x.2.getD t.index 0 + 1
    let m := Memory.writeBytes x.1 (counterAt t.index) (le32 n.toNat)
    let m := entries.foldl (fun m k =>
      writePieces (t.base + t.size * k) m (u.writer.pieces t (s.entryAt u.after t k))) m
    (Memory.writeBytes m (counterAt t.index + 4) (le32 n.toNat), x.2.set t.index n)

/-- The updates that one event makes: at most one of each table its writer keeps. -/
def State.updateTables (s : State) (x : List Host.Cell × List (BitVec 32)) (u : ImageUpdate) :
    List Host.Cell × List (BitVec 32) :=
  u.writer.tables.foldl (s.updateTable u) x

/-- Bring the image up to the state after a step, by one update for each writer, event and table with a change, in the
order of the events, so that no two updates of one table overlap (R172); while the window is being formatted nothing is
written. What counts as one event is the model's choice (log 8). -/
def State.refresh (old s : State) : State :=
  let t : State := { s with events := old.events }
  if s.formatting.isSome then t
  else
    let x := (State.imageUpdates old s).foldl s.updateTables (s.mem, s.imageCounts)
    { t with mem := x.1, imageCounts := x.2 }

end Sys2Proof.Machine
end

