-- ==== Sys2Proof/Machine/Operands.lean ====
section
/-! DEFINITION. The operand forms of the order bodies (12 R183): fan units, presence sets, regions and fields brought
within their ranges, with whether a clamp changed a value. -/

namespace Sys2Proof.Machine

/-- A fan unit: bits 0 to 7 the fan number, bit 8 the GROUP mark (R183). -/
structure FanUnit where
  number : Nat
  group  : Bool
  deriving DecidableEq, Repr

def fanUnit (body : List Byte) : FanUnit := { number := u8 body 0, group := u16 body 0 / 0x100 % 2 == 1 }

/-- The members of a unit (R112): the one fan, or the members of the group in ascending fan number; none when the
unit names no numbered fan or no group. -/
def State.unitMembers (s : State) (u : FanUnit) : Option (List Nat) :=
  if u.group then
    let ms := (List.range 48).filter fun f => (s.fan f).any fun r => r.group == some u.number
    if ms = [] then none else some ms
  else if (s.fan u.number).isSome then some [u.number]
  else none

/-- Bit i of a presence set (R181, R183). -/
def present (set i : Nat) : Bool := set / 2 ^ i % 2 == 1

/-- A region: its offset and its length (R183). -/
structure Region where
  offset : Nat
  length : Nat
  deriving DecidableEq, Repr

def region (body : List Byte) (i : Nat) : Region := { offset := u16 body i, length := u16 body (i + 2) }

/-- A region passes the test of R169. -/
def Region.ok (r : Region) : Bool := regionOk r.offset r.length

/-- The entries of a region, of one size each. -/
def State.entries (s : State) (r : Region) (size : Nat) : List (List Byte) :=
  (List.range (r.length / size)).map fun i => s.readBytes (r.offset + size * i) size

/-- A field of an order after it has been brought within its range: the value in force, and whether a clamp changed
the value carried. -/
structure Field where
  value   : Nat
  clamped : Bool
  deriving DecidableEq, Repr

/-- A field that is present is clamped to its range; an absent field keeps its value. -/
def field (given : Bool) (lo hi carried held : Nat) : Field :=
  if given then { value := clampNat lo hi carried, clamped := clampNat lo hi carried != carried }
  else { value := held, clamped := false }

/-- A zone field: NONE is 0xFF (R181). -/
def zoneField (v : Nat) : Option Nat := if v = 0xFF then none else some v

/-- OK, or OK CLAMPED when a clamp changed a value. -/
def okOutcome (clamped : Bool) : OrderOutcome := if clamped then .okClamped else .ok

/-- A list without an element twice. -/
def noTwice : List Nat → Bool
  | [] => true
  | x :: xs => !xs.contains x && noTwice xs

end Sys2Proof.Machine
end

