-- ==== Sys2Proof/Machine/RingOrders.lean ====
section
/-! DEFINITION. The dispatcher's own steps and the orders of the ring, the stations and ABORT: ENROL (02 R25, R26),
SET RING (01 R3), SENSE STATION, CLEAR COUNTS (02 R42, R43), ABORT (10 R171), withdrawn slots and unknown order codes
(10 R167). -/

namespace Sys2Proof.Machine

/-- A step of the dispatcher for one order code (R167), with the image brought up to it. -/
def State.orderStep (code : Nat) (run : Nat → List Byte → State → State) (s : State) :
    Host.Outcome State Fault Refusal :=
  .next (State.refresh s (s.takeOrder code run))

/-! ## Withdrawn slots and unknown codes (R167) -/

/-- The refusal reasons (R181). -/
def reasonNotPosted : Nat := 1
def reasonOutOfRange : Nat := 2
def reasonAlreadyQueued : Nat := 3
def reasonWithdrawn : Nat := 4

/-- SLOT_WITHDRAWN: a head that is not POSTED is dropped, and the slot is left as it is (R167). -/
def execSlotWithdrawn (s : State) : Host.Outcome State Fault Refusal :=
  match s.intake with
  | [] => .next s
  | slot :: rest =>
    if s.slotStatus slot = slotPosted then .next s
    else .next (State.refusePost slot reasonWithdrawn { s with intake := rest })

/-- The order codes of R183. -/
def knownOrder (code : Nat) : Bool := decide (0x01 ≤ code ∧ code ≤ 0x1A)

/-- UNKNOWN_ORDER_CODE: a POSTED head with a code that no order has is taken and ends BAD ORDER (R167). -/
def execUnknownOrderCode (s : State) : Host.Outcome State Fault Refusal :=
  match s.intake with
  | [] => .next s
  | slot :: _ =>
    let code := (s.readByte (slotAt slot + 1)).toNat
    if knownOrder code then .next s
    else .next (s.takeOrder code fun slot _ s => s.completeBare slot .badOrder)

/-! ## ENROL (R25) -/

/-- An active order ends RESURVEYED at the start of an ENROL (R25, R78, R116, R147, R180). -/
def State.resurvey (o : ActiveOrder) (s : State) : State :=
  match o.work with
  | .quick => s
  | .enrol => s
  | .capture _ => s.completeBare o.slot .resurveyed
  | .fans parts clamped =>
    let ended := parts.map fun p => { p with outcome := some (p.outcome.getD .resurveyed) }
    (s.setWork o.slot (.fans ended clamped)).completeParts o.slot
  | .signal d =>
    match s.door d with
    | none => s.completeBare o.slot .resurveyed
    | some r => s.complete o.slot .resurveyed false 1 (signalBody s.plan d r)
  | .param st => s.endTransfer st .resurveyed 0

/-- The feeders at the start of an ENROL (R25, R123, R132). -/
def Feeder.enrolled (k : Feeder) : Feeder :=
  Feeder.settlePending { k with energizing := [], class1 := [], class0 := [] }

/-- Every fan, channel and door record becomes NONE, and the feeders and zones are emptied (R25); the tables of all of
them are rewritten whole (R79, R97, R122, R133, R148). That no DOOR STATE is
journalled for a door that becomes NONE is the model's choice (R136, log 90). -/
def State.clearDevices (s : State) : State :=
  let s : State := { s with
    fans := List.replicate 48 none, channels := List.replicate 96 none, doors := List.replicate 32 none,
    passageWritten := List.replicate 48 none, params := List.replicate 24 none,
    feeders := s.feeders.map Feeder.enrolled }
  ((((s.handledAs .whole .fans).handledAs .whole .channels).handledAs .whole .doors).handledAs .whole
    .feeders).emptyZones

/-- The start of an ENROL in ring state IDLE or CLOSED (R25, R26). A ring that leaves IDLE without signal at
B-receive folds at once (R48), and otherwise sends its first train at once (R1). That the fold comes before the cycle number
is raised and before a train is sent is the model's choice (log 77). -/
def State.startEnrol (slot : Nat) (s : State) : State :=
  let idle := s.ring.state == .idle
  let s := s.setWork slot .enrol
  let s := s.active.foldl (fun s o => s.resurvey o) s
  let s := s.emptyTable.clearDevices.enrolRegime
  let s := ((s.setRingState .enrolling).clearRing).handled .ring
  let ctx : EnrolContext :=
    { slot := slot, failures := 0, addressed := false, probe := .none, excess := false, overCapacity := false }
  let s := State.addressingAttempt { s with enrol := some ctx }
  if idle then (if s.sigB then s else s.detectFold .signalLoss).leaveIdle else s

/-- ENROL is taken (R25). -/
def State.enrolOrder (slot : Nat) (_body : List Byte) (s : State) : State :=
  match s.ring.state with
  | .enrolling => s.completeBare slot .busy
  | .folded | .reclosing => s.completeBare slot .ringFolded
  | .idle | .closed => s.startEnrol slot

/-- ENROL taken (R25). -/
def execEnrol (s : State) : Host.Outcome State Fault Refusal := s.orderStep 0x01 State.enrolOrder

/-! ## SET RING (R3) -/

/-- The cycle interval that a SET RING field gives: 0 leaves it, other values are rounded down to a 5 ms step and
clamped to 5 to 50 (R3). -/
def ringInterval (carried held : Nat) : Nat := if carried = 0 then held else clampNat 5 50 (carried / 5 * 5)

/-- The heal time that a SET RING field gives (R3). -/
def ringHealTime (carried held : Nat) : Nat := if carried = 0 then held else clampNat 500 30000 carried

/-- SET RING is carried out (R3). -/
def State.setRingOrder (slot : Nat) (body : List Byte) (s : State) : State :=
  let iv := ringInterval (u16 body 0) s.ring.interval
  let ht := ringHealTime (u16 body 2) s.ring.healTime
  let changed := (u16 body 0 != 0 && iv != u16 body 0) || (u16 body 2 != 0 && ht != u16 body 2)
  (s.modRing fun g => { g with interval := iv, healTime := ht }).complete slot (okOutcome changed) false 1
    (le16 iv ++ le16 ht)

/-- SET RING taken (R3). -/
def execSetRing (s : State) : Host.Outcome State Fault Refusal := s.orderStep 0x02 State.setRingOrder

/-! ## SENSE STATION and CLEAR COUNTS (R42, R43) -/

/-- SENSE STATION is carried out (R42). -/
def State.senseOrder (slot : Nat) (body : List Byte) (s : State) : State :=
  let st := u8 body 0
  match s.station st with
  | none => s.completeBare slot .noSuchUnit
  | some r =>
    let e := s.entry st
    s.complete slot .ok false 1 (r.fields st e.queue.length ++ [byte e.intake.code, byte e.replies])

/-- SENSE STATION taken (R42). -/
def execSenseStation (s : State) : Host.Outcome State Fault Refusal := s.orderStep 0x03 State.senseOrder

/-- The counts of a station are cleared (R43). -/
def Station.clearCounts (r : Station) : Station := { r with errors := 0, linkDowns := 0, wasDown := false }

/-- CLEAR COUNTS is carried out (R43). -/
def State.clearCountsOrder (slot : Nat) (body : List Byte) (s : State) : State :=
  let st := u8 body 0
  if st = 0 then
    State.complete slot .ok false 0 [] { s with stations := s.stations.map Station.clearCounts }
  else if (s.station st).isSome then (s.modStation st Station.clearCounts).complete slot .ok false 0 []
  else s.completeBare slot .noSuchUnit

/-- CLEAR COUNTS taken (R43). -/
def execClearCounts (s : State) : Host.Outcome State Fault Refusal := s.orderStep 0x04 State.clearCountsOrder

/-! ## ABORT (R171) -/

/-- The requested values that hold an aborted fan where it is: the commanded ones, with the step of R119's
table (R119). -/
def Fan.held (r : Fan) : Speed :=
  match r.state with
  | .running | .ramping => r.commanded
  | .queued => { r.commanded with step := if r.slotHeld then 1 else 0 }
  | .energizing => { r.commanded with step := 1 }
  | .stopped | .runningDown | .reverseDwell | .fault | .lockedOut | .unreachable => { r.commanded with step := 0 }

/-- A part of an aborted fan order ends, and its fan holds where it is (R119). -/
def State.abortPart (f : Nat) (s : State) : State :=
  match s.fan f with
  | none => s
  | some r => ((((s.endPart f .aborted).modFan f fun x => { x with requested := r.held }).actOnTarget f).settleFan f)

/-- The owning block ends an aborted order as its rule states (R171). That the fans of a group order are ended and act by
ascending fan number is the model's choice (log 82). -/
def State.abortWork (o : ActiveOrder) (s : State) : State :=
  match o.work with
  | .quick => s
  | .enrol => s.failEnrol .aborted
  | .capture c => s.endCapture c .aborted
  | .fans parts _ =>
    forEach ((parts.filter fun p => p.outcome.isNone).map (·.fan)) (fun f s => (s.abortPart f).handled .fans) s
  | .signal d => s.endSignal d .aborted
  | .param st => s.abortParam st

/-- A long order (R167). -/
def Work.long : Work → Bool
  | .quick => false
  | .enrol | .capture _ | .fans _ _ | .signal _ | .param _ => true

/-- ABORT is carried out (R171). -/
def State.abortOrder (slot : Nat) (body : List Byte) (s : State) : State :=
  let named := u8 body 0
  if 64 ≤ named then s.completeBare slot .badParameter
  else
    match s.activeOrder named with
    | none => s.complete slot .notActive false 0 []
    | some o =>
      if o.work.long then (s.complete slot .ok false 0 []).abortWork o else s.complete slot .notActive false 0 []

/-- ABORT taken (R171). -/
def execAbort (s : State) : Host.Outcome State Fault Refusal := s.orderStep 0x1A State.abortOrder

end Sys2Proof.Machine
end

