-- ==== Sys2Proof/Machine/ZoneOrders.lean ====
section
/-! DEFINITION. The orders of channels and zones: ZONE MAP (05 R83, R84), SET CHANNEL and CAPTURE ZERO (04 R74 to R76),
SET ZONE and SCAN ZONES (05 R94 to R96). -/

namespace Sys2Proof.Machine

/-! ## ZONE MAP (R83) -/

/-- The member list of a kind of a zone has room for a channel (R83). -/
def State.zoneRoom (s : State) (kind : ChKind) : Option Nat → Bool
  | none => true
  | some z => decide (((s.zone z).kind kind).members.length < 4)

/-- One entry of ZONE MAP is tested and applied whole, as an event of its own for the tables it changes (R83, R84, R141,
R145, R159, R172). That an entry naming the channel's
present zone passes when the member list is full (log 57), and that the zone number is tested before the unit (log 59), is
the model's choice. -/
def State.mapEntry (e : List Byte) (s : State) : OrderOutcome × State :=
  let kind := u8 e 0
  let n := u8 e 1
  let z := zoneField (u8 e 2)
  if kind = 0 ∨ 3 < kind ∨ z.any (fun z => decide (16 ≤ z)) then (.badParameter, s)
  else if kind = 1 then
    match s.channel n with
    | none => (.noSuchUnit, s)
    | some c =>
      if c.zone ≠ z ∧ !s.zoneRoom c.kind z then (.badParameter, s)
      else (.ok, ((s.mapChannel n z).handled .channels).handled .zones)
  else if kind = 2 then
    if (s.fan n).isSome then (.ok, ((s.setFanZone n z).handled .fans).handled .planner) else (.noSuchUnit, s)
  else if (s.door n).isSome then (.ok, (s.setDoorZone n z).handled .doors) else (.noSuchUnit, s)

/-- The entries are applied one at a time until one fails: the outcome and how many were applied (R83). -/
def State.mapEntries (offset : Nat) : Nat → Nat → State → OrderOutcome × Nat × State
  | 0, i, s => (.ok, i, s)
  | n + 1, i, s =>
    match s.mapEntry (s.readBytes (offset + 4 * i) 4) with
    | (.ok, s) => State.mapEntries offset n (i + 1) s
    | (out, s) => (out, i, s)

/-- ZONE MAP is carried out (R83). -/
def State.zoneMapOrder (slot : Nat) (body : List Byte) (s : State) : State :=
  let r := region body 0
  let refuse (out : OrderOutcome) : State := s.complete slot out false 0 (le16 0 ++ le16 0xFFFF)
  if !r.ok then refuse .badBuffer
  else if r.length % 4 ≠ 0 then refuse .badParameter
  else
    let (out, n, s) := s.mapEntries r.offset (r.length / 4) 0
    s.complete slot out false n (le16 n ++ le16 (if out = .ok then 0xFFFF else n))

/-- ZONE MAP taken (R83). -/
def execZoneMap (s : State) : Host.Outcome State Fault Refusal := s.orderStep 0x05 State.zoneMapOrder

/-! ## SET CHANNEL (R74, R75) -/

/-- The settings of a channel after a SET CHANNEL (R74, R75): a changed zero or gain marks the seed due, and a changed
stale time whose moment has not passed moves the stale expiry. -/
def Channel.set (now : Clock) (z0 gain shift under stale : Nat) (skip : Bool) (c : Channel) : Channel :=
  { c with
    zero := z0, gain := gain, shift := shift, under := under, skip := skip, stale := stale,
    seedDue := c.seedDue || z0 != c.zero || gain != c.gain,
    armed := if stale = c.stale then c.armed else c.armed || decide (elapsed now c.lastFeed < 1000 * stale) }

/-- A changed stale time whose moment has already passed makes the channel STALE at once (R75, log 30). -/
def State.restale (c : Nat) (before : Nat) (s : State) : State :=
  match s.channel c with
  | none => s
  | some r =>
    if r.stale ≠ before ∧ Channel.staleDue s.clock { r with armed := true } then s.becomeStale c else s

/-- The SET CHANNEL body in force, laid out as the parameters from offset 1 on and written from body offset 0 (R183,
log 10). -/
def Channel.settings (c : Channel) : List Byte :=
  [0x3F] ++ le16 c.zero ++ le16 c.gain ++ [byte c.shift, byte (boolCode c.skip)] ++ le16 c.under ++ [byte c.stale]

/-- SET CHANNEL is carried out (R74, R75). That a changed skip flag is reported with the quality as it was, before the
channel becomes STALE with a report of its own, is the model's choice (log 56). -/
def State.setChannelOrder (slot : Nat) (body : List Byte) (s : State) : State :=
  let n := u8 body 0
  let p := u8 body 1
  match s.channel n with
  | none => s.completeBare slot .noSuchUnit
  | some c =>
    let zeroF := field (present p 0) 0 4095 (u16 body 2) c.zero
    let gain := field (present p 1) 1 65535 (u16 body 4) c.gain
    let shift := field (present p 2) 0 7 (u8 body 6) c.shift
    let under := field (present p 3) 0 4095 (u16 body 8) c.under
    let skip := if present p 4 then u8 body 7 != 0 else c.skip
    let stale := field (present p 5) 1 60 (u8 body 10) c.stale
    let clamped := zeroF.clamped || gain.clamped || shift.clamped || under.clamped || stale.clamped
    let s := s.modChannel n (Channel.set s.clock zeroF.value gain.value shift.value under.value stale.value skip)
    let s := if skip = c.skip then s else s.reportChannel n
    let s := s.restale n c.stale
    s.complete slot (okOutcome clamped) false 1 (((s.channel n).map Channel.settings).getD [])

/-- SET CHANNEL taken (R74). -/
def execSetChannel (s : State) : Host.Outcome State Fault Refusal := s.orderStep 0x06 State.setChannelOrder

/-! ## CAPTURE ZERO (R76) -/

/-- CAPTURE ZERO is taken (R76). -/
def State.captureOrder (slot : Nat) (body : List Byte) (s : State) : State :=
  let n := u8 body 0
  if s.ringNotRunning then s.completeBare slot .ringNotRunning
  else
    match s.channel n with
    | none => s.completeBare slot .noSuchUnit
    | some c =>
      if c.quality = .lost then s.completeBare slot .unreachable
      else if c.capture.isSome then s.completeBare slot .busy
      else
        (s.setWork slot (.capture n)).modChannel n fun c => { c with
          capture := some { slot := slot, count := 0, sum := 0, lowest := 4095, highest := 0 } }

/-- CAPTURE ZERO taken (R76). -/
def execCaptureZero (s : State) : Host.Outcome State Fault Refusal := s.orderStep 0x07 State.captureOrder

/-! ## SET ZONE (R94, R95) -/

/-- A threshold group as carried in a body: T1 to T4 and H. -/
def carriedThresholds (body : List Byte) (i : Nat) : Thresholds :=
  { t1 := u16 body i, t2 := u16 body (i + 2), t3 := u16 body (i + 4), t4 := u16 body (i + 6), h := u16 body (i + 8) }

/-- T1 to T4 are in order (R94). -/
def Thresholds.inOrder (t : Thresholds) : Bool := decide (t.t1 ≤ t.t2 ∧ t.t2 ≤ t.t3 ∧ t.t3 ≤ t.t4)

/-- A threshold group clamped to the top of its kind's range (R94). -/
def Thresholds.clamp (hi : Nat) (t : Thresholds) : Thresholds :=
  { t1 := min t.t1 hi, t2 := min t.t2 hi, t3 := min t.t3 hi, t4 := min t.t4 hi, h := min t.h hi }

/-- A present threshold group is clamped and stored, an absent one kept; with whether a clamp changed a value. -/
def thresholdGroup (given : Bool) (hi : Nat) (carried held : Thresholds) : Thresholds × Bool :=
  if given then (carried.clamp hi, carried.clamp hi != carried) else (held, false)

def Thresholds.bytes (t : Thresholds) : List Byte := le16 t.t1 ++ le16 t.t2 ++ le16 t.t3 ++ le16 t.t4 ++ le16 t.h

/-- The SET ZONE body in force, all groups present (R183). -/
def Zone.settings (n : Nat) (z : Zone) : List Byte :=
  [byte n, 0x3F] ++ z.coT.bytes ++ z.no2T.bytes ++ z.visT.bytes ++ le16 z.smoke ++ le16 z.hold ++ [byte z.fallback]

/-- SET ZONE is carried out (R94, R95). That a refused SET ZONE returns an empty body, and not the six unchanged groups, is
the model's choice (log 99). -/
def State.setZoneOrder (slot : Nat) (body : List Byte) (s : State) : State :=
  let n := u8 body 0
  let p := u8 body 1
  let co := carriedThresholds body 2
  let no2 := carriedThresholds body 12
  let vis := carriedThresholds body 22
  if 16 ≤ n then s.completeBare slot .noSuchUnit
  else if (present p 0 && !co.inOrder) || (present p 1 && !no2.inOrder) || (present p 2 && !vis.inOrder) then
    s.completeBare slot .badParameter
  else
    let z := s.zone n
    let (coT, c0) := thresholdGroup (present p 0) 5000 co z.coT
    let (no2T, c1) := thresholdGroup (present p 1) 2000 no2 z.no2T
    let (visT, c2) := thresholdGroup (present p 2) 500 vis z.visT
    let smoke := field (present p 3) 0 500 (u16 body 32) z.smoke
    let hold := field (present p 4) 0 600 (u16 body 34) z.hold
    let fallback := field (present p 5) 0 4 (u8 body 36) z.fallback
    let s := s.modZone n fun z => { z with
      coT := coT, no2T := no2T, visT := visT, smoke := smoke.value, hold := hold.value, fallback := fallback.value }
    let s := s.applyZone n z.hold
    s.complete slot (okOutcome (c0 || c1 || c2 || smoke.clamped || hold.clamped || fallback.clamped)) false 1
      ((s.zone n).settings n)

/-- SET ZONE taken (R94). -/
def execSetZone (s : State) : Host.Outcome State Fault Refusal := s.orderStep 0x08 State.setZoneOrder

/-! ## SCAN ZONES (R96) -/

/-- The relation of a value to the key: EQUAL, AT OR ABOVE, AT OR BELOW (R96, R181). -/
def related (relation : Nat) (value key : Int) : Bool :=
  match relation with
  | 0 => value == key
  | 1 => decide (key ≤ value)
  | _ => decide (value ≤ key)

/-- The zones visited: start, start + stride and so on, up to 15 (R96). -/
def visitedZones (start stride : Nat) : List Nat :=
  (List.range 16).filter fun z => decide (start ≤ z) && (z - start) % stride == 0

/-- The pairs of zone and value that match (R96). -/
def State.scanMatches (s : State) (kind : ChKind) (relation : Nat) (key : Int) (zones : List Nat) : List (Nat × Int) :=
  zones.filterMap fun z =>
    let r := s.zone z
    let k := r.kind kind
    if r.configured && (k.vstate == .present || k.vstate == .held) && related relation k.value key then
      some (z, k.value)
    else none

/-- Pairs as they are written: zone, then the signed value (R183). -/
def pairBytes (ps : List (Nat × Int)) : List Byte := ps.flatMap fun p => byte p.1 :: sle16 p.2

/-- SCAN ZONES is carried out (R96). -/
def State.scanOrder (slot : Nat) (body : List Byte) (s : State) : State :=
  let r := region body 6
  let start := u8 body 4
  let stride := u8 body 5
  if r.offset ≠ 0 ∧ !r.ok then s.completeBare slot .badBuffer
  else
    match ChKind.ofCode? (u8 body 0) with
    | none => s.completeBare slot .badParameter
    | some kind =>
      if 2 < u8 body 1 ∨ 16 ≤ start ∨ stride = 0 ∨ 2 < stride then s.completeBare slot .badParameter
      else
        let zones := visitedZones start stride
        let found := s.scanMatches kind (u8 body 1) (s16 body 2) zones
        let fit := if r.offset = 0 then 12 else r.length / 3
        let out := found.take fit
        let s := if r.offset = 0 then s else s.write r.offset (pairBytes out)
        s.complete slot (okOutcome (out.length < found.length)) false out.length
          ([byte zones.length, byte found.length, byte out.length, 0] ++
            if r.offset = 0 then pairBytes out else [])

/-- SCAN ZONES taken (R96). -/
def execScanZones (s : State) : Host.Outcome State Fault Refusal := s.orderStep 0x09 State.scanOrder

end Sys2Proof.Machine
end

