-- ==== Sys2Proof/Machine/FanOrders.lean ====
section
/-! DEFINITION. The fan orders FAN RUN, FAN STOP, FAN HOME, FAN LOCKOUT, FAN RELEASE, FAN UNLOCK, FAN PROFILE,
FAN GROUP and FAN UNGROUP (06 R112 to R121) and SET FEEDER (07 R131). -/

namespace Sys2Proof.Machine

/-! ## Taking the parts of an order (R112) -/

/-- A part of the order has been marked clamped (R114, R120). -/
def State.markClamped (slot : Nat) (s : State) : State :=
  { s with active := s.active.map fun o =>
      if o.slot = slot then
        match o.work with
        | .fans parts _ => { o with work := .fans parts true }
        | _ => o
      else o }

/-- The order is spread over its members, and each member's part is taken on its own (R112). That the parts are taken by
ascending fan number is the model's choice (log 81). -/
def State.takeParts (slot : Nat) (members : List Nat) (take : Nat → State → State) (s : State) : State :=
  forEach members (fun f s => (take f s).handled .fans)
    (s.setWork slot (.fans (members.map fun f => { fan := f, outcome := none }) false))

/-- A fan order names its unit in the first two bytes of its body (R112, R183). -/
def State.withUnit (slot : Nat) (body : List Byte) (act : List Nat → State → State) (s : State) : State :=
  match s.unitMembers (fanUnit body) with
  | none => s.completeBare slot .noSuchUnit
  | some ms => act ms s

/-- A fan order that needs the ring: first the ring, then the unit (R112). -/
def State.withRingUnit (slot : Nat) (body : List Byte) (act : List Nat → State → State) (s : State) : State :=
  if s.ringNotRunning then s.completeBare slot .ringNotRunning else s.withUnit slot body act

/-- A fan in FAULT when a FAN HOME or FAN LOCKOUT part begins has its run-down limit started (R117, R118). -/
def State.startFaultLimit (f : Nat) (s : State) : State :=
  s.modFan f fun r => if r.state = .fault then { r with timer := some (r.rundownTimer s.clock) } else r

/-- A part becomes the active part of its fan, and the part it replaces ends SUPERSEDED (R112). -/
def State.installPart (slot f : Nat) (w : PartWork) (s : State) : State :=
  (s.endPart f .superseded).modFan f fun r => { r with part := some { slot := slot, work := w } }

/-- How a part of FAN RUN or FAN STOP that asks for `v` ends at taking, for a fan that is already in the condition it
waits for (R114, R115); a part of FAN HOME or FAN LOCKOUT never does. -/
def Fan.endsAtTaking (r : Fan) (w : PartWork) (v : Speed) : Option OrderOutcome :=
  match w with
  | .run want => Fan.runOutcome { r with requested := { v with step := min v.step r.top } } want
  | .stop => if r.state = .stopped then some .ok else none
  | .home _ => none
  | .lockout => none

/-- A part that writes requested values `v` and then acts (R112 steps 3 and 4). A part for a fan in FAULT ends at
taking when `faultEnds` (R114, R115), and otherwise starts the run-down limit (R117, R118). A part that ends at taking
replaces none: the fan's active part goes on (R112 step 4). -/
def State.takePart (slot f : Nat) (w : PartWork) (v : Speed) (faultEnds : Bool) (s : State) : State :=
  match s.fan f with
  | none => s
  | some r =>
    match r.state with
    | .lockedOut => s.partOutcome slot f .lockedOut
    | .unreachable => (s.manualWrite f v).partOutcome slot f .unreachable
    | .fault =>
      if faultEnds then (s.manualWrite f v).partOutcome slot f r.cause.outcome
      else (((s.installPart slot f w).startFaultLimit f).manualWrite f v).settleFan f
    | .stopped | .queued | .energizing | .ramping | .running | .runningDown | .reverseDwell =>
      match r.endsAtTaking w v with
      | some out => (s.manualWrite f v).partOutcome slot f out
      | none => ((s.installPart slot f w).manualWrite f v).settleFan f

/-- Requested step 0 with the requested direction left as it was (R115, R117, R118). -/
def State.restRequest (s : State) (f : Nat) : Speed :=
  match s.fan f with
  | none => { step := 0, dir := .plus }
  | some r => { r.requested with step := 0 }

/-! ## FAN RUN (R114) -/

/-- A part of FAN RUN: a step above the top step marks the part clamped (R99, R114). -/
def State.runPart (slot : Nat) (v : Speed) (f : Nat) (s : State) : State :=
  let s := if (s.fan f).any fun r => decide (r.top < v.step) && r.state != .lockedOut then s.markClamped slot else s
  s.takePart slot f (.run v) v true

/-- FAN RUN is carried out (R112, R114). -/
def State.fanRunOrder (slot : Nat) (body : List Byte) (s : State) : State :=
  s.withRingUnit slot body fun ms s =>
    match Dir.ofCode? (u8 body 2) with
    | none => s.completeBare slot .badParameter
    | some d =>
      let step := u8 body 3
      if step = 0 ∨ 8 < step then s.completeBare slot .badParameter
      else s.takeParts slot ms (State.runPart slot { step := step, dir := d })

/-- FAN RUN taken (R114). -/
def execFanRun (s : State) : Host.Outcome State Fault Refusal := s.orderStep 0x0A State.fanRunOrder

/-! ## FAN STOP, FAN HOME, FAN LOCKOUT (R115, R117, R118) -/

/-- FAN STOP is carried out (R115). -/
def State.fanStopOrder (slot : Nat) (body : List Byte) (s : State) : State :=
  s.withRingUnit slot body fun ms s =>
    s.takeParts slot ms fun f s => s.takePart slot f .stop (s.restRequest f) true

/-- FAN STOP taken (R115). -/
def execFanStop (s : State) : Host.Outcome State Fault Refusal := s.orderStep 0x0B State.fanStopOrder

/-- FAN HOME is carried out (R117). -/
def State.fanHomeOrder (slot : Nat) (body : List Byte) (s : State) : State :=
  s.withRingUnit slot body fun ms s =>
    s.takeParts slot ms fun f s => s.takePart slot f (.home .waiting) (s.restRequest f) false

/-- FAN HOME taken (R117). -/
def execFanHome (s : State) : Host.Outcome State Fault Refusal := s.orderStep 0x0C State.fanHomeOrder

/-- FAN LOCKOUT is carried out (R118). -/
def State.fanLockoutOrder (slot : Nat) (body : List Byte) (s : State) : State :=
  s.withRingUnit slot body fun ms s =>
    s.takeParts slot ms fun f s => s.takePart slot f .lockout (s.restRequest f) false

/-- FAN LOCKOUT taken (R118). -/
def execFanLockout (s : State) : Host.Outcome State Fault Refusal := s.orderStep 0x0D State.fanLockoutOrder

/-! ## FAN RELEASE (R115) -/

/-- A part of FAN RELEASE: the fan becomes AUTO, its active part ends SUPERSEDED, and the planner or the door
supervisor is asked (R115, R139, R150). -/
def State.releasePart (slot f : Nat) (s : State) : State :=
  match s.fan f with
  | none => s
  | some r =>
    if r.state = .lockedOut then s.partOutcome slot f .lockedOut
    else
      let s := ((s.modFan f fun r => { r with source := .auto, doorReq := false }).endPart f .superseded).handled .fans
      let s :=
        match r.kind with
        | .jet => (s.jetReleased f).handled .planner
        | .passage => if (s.doors.filterMap id).any fun d => d.passage == some f then s.writePassage true f else s
      s.partOutcome slot f .ok

/-- FAN RELEASE is carried out (R112, R115). -/
def State.fanReleaseOrder (slot : Nat) (body : List Byte) (s : State) : State :=
  s.withUnit slot body fun ms s => s.takeParts slot ms (State.releasePart slot)

/-- FAN RELEASE taken (R115). -/
def execFanRelease (s : State) : Host.Outcome State Fault Refusal := s.orderStep 0x0E State.fanReleaseOrder

/-! ## FAN UNLOCK (R118) -/

/-- A LOCKED OUT fan leaves that state (R118). -/
def State.unlock (f : Nat) (s : State) : State :=
  match s.fan f with
  | none => s
  | some r =>
    if r.state ≠ .lockedOut then s
    else
      let s := s.modFan f fun r => { r with source := .manual, requested := { r.requested with step := 0 } }
      if r.cause ≠ .none then s.enterFan f .fault
      else if r.faultCode ≠ 0 then (s.modFan f fun r => { r with cause := .driveFault }).enterFan f .fault
      else s.enterFan f .stopped

/-- FAN UNLOCK is carried out (R112, R118). -/
def State.fanUnlockOrder (slot : Nat) (body : List Byte) (s : State) : State :=
  s.withUnit slot body fun ms s => s.takeParts slot ms fun f s => (s.unlock f).partOutcome slot f .ok

/-- FAN UNLOCK taken (R118). -/
def execFanUnlock (s : State) : Host.Outcome State Fault Refusal := s.orderStep 0x0F State.fanUnlockOrder

/-! ## FAN PROFILE (R113) -/

/-- The four fields of a FAN PROFILE body over a profile held, with whether a clamp changed a value (R113). -/
def profileOf (body : List Byte) (held : Profile) : Profile × Bool :=
  let p := u8 body 2
  let interval := field (present p 0) 1 16 (u8 body 3) held.interval
  let energize := field (present p 1) 2 30 (u8 body 4) held.energize
  let dwell := field (present p 2) 0 60 (u8 body 5) held.dwell
  let rundown := field (present p 3) 10 600 (u16 body 6) held.rundown
  ({ interval := interval.value, energize := energize.value, rundown := rundown.value, dwell := dwell.value },
    interval.clamped || energize.clamped || dwell.clamped || rundown.clamped)

/-- A part of FAN PROFILE; a part in which a clamp changed a value counts as marked clamped (R112, R113, R120,
log 44). -/
def State.profilePart (slot : Nat) (body : List Byte) (f : Nat) (s : State) : State :=
  match s.fan f with
  | none => s
  | some r =>
    if r.state = .lockedOut then s.partOutcome slot f .lockedOut
    else
      let (p, clamped) := profileOf body r.profile
      let s := if clamped then s.markClamped slot else s
      (s.modFan f fun r => { r with profile := p }).partOutcome slot f (okOutcome clamped)

/-- The profile in force, laid out as the parameters from offset 2 on and written from body offset 0 (R113, R183,
log 10). -/
def Profile.settings (p : Profile) : List Byte :=
  [0x0F, byte p.interval, byte p.energize, byte p.dwell] ++ le16 p.rundown

/-- FAN PROFILE naming one fan: the part's outcome with the values in force (R112, R113). -/
def State.profileOne (slot : Nat) (body : List Byte) (f : Nat) (s : State) : State :=
  match s.fan f with
  | none => s
  | some r =>
    if r.state = .lockedOut then s.complete slot .lockedOut false 1 r.profile.settings
    else
      let (p, clamped) := profileOf body r.profile
      (s.modFan f fun r => { r with profile := p }).complete slot (okOutcome clamped) false 1 p.settings

/-- FAN PROFILE is carried out (R112, R113). -/
def State.fanProfileOrder (slot : Nat) (body : List Byte) (s : State) : State :=
  s.withUnit slot body fun ms s =>
    if (fanUnit body).group then s.takeParts slot ms (State.profilePart slot body)
    else s.profileOne slot body (fanUnit body).number

/-- FAN PROFILE taken (R113). -/
def execFanProfile (s : State) : Host.Outcome State Fault Refusal := s.orderStep 0x10 State.fanProfileOrder

/-! ## FAN GROUP and FAN UNGROUP (R121) -/

/-- The identifiers of the groups formed. -/
def State.groups (s : State) : List Nat := ((s.fans.filterMap id).filterMap (·.group)).eraseDups

/-- Why a list of fans cannot form a group: the first failing test of R121. -/
def State.groupRefused (s : State) (fs : List Nat) : Option OrderOutcome :=
  if fs.length < 2 ∨ 16 < fs.length ∨ noTwice fs = false then some .badParameter
  else if fs.any fun f => (s.fan f).isNone then some .noSuchUnit
  else if fs.any fun f => (s.fan f).any fun r => r.state == .lockedOut then some .lockedOut
  else if fs.any fun f => (s.fan f).any fun r => r.group.isSome then some .inOtherGroup
  else if 16 ≤ s.groups.length then some .badParameter
  else none

/-- FAN GROUP is carried out (R121). -/
def State.fanGroupOrder (slot : Nat) (body : List Byte) (s : State) : State :=
  let r := region body 0
  if !r.ok then s.completeBare slot .badBuffer
  else
    let fs := (s.readBytes r.offset r.length).map (·.toNat)
    match s.groupRefused fs with
    | some out => s.completeBare slot out
    | none =>
      let ident := fs.foldl min 0xFF
      (forEach fs (fun f s => s.modFan f fun r => { r with group := some ident }) s).complete slot .ok false 1
        [byte ident]

/-- FAN GROUP taken (R121). -/
def execFanGroup (s : State) : Host.Outcome State Fault Refusal := s.orderStep 0x11 State.fanGroupOrder

/-- FAN UNGROUP is carried out (R121). -/
def State.fanUngroupOrder (slot : Nat) (body : List Byte) (s : State) : State :=
  let ident := u8 body 0
  if s.groups.contains ident then
    State.complete slot .ok false 0 [] { s with
      fans := s.fans.map (Option.map fun r => if r.group = some ident then { r with group := none } else r) }
  else s.completeBare slot .noSuchUnit

/-- FAN UNGROUP taken (R121). -/
def execFanUngroup (s : State) : Host.Outcome State Fault Refusal := s.orderStep 0x12 State.fanUngroupOrder

/-! ## SET FEEDER (R131) -/

/-- An allowance is applied to a feeder at once, or stored as its pending allowance (R131). -/
def Feeder.setAllowance (v : Nat) (k : Feeder) : Feeder :=
  if k.energizing.length ≤ v then { k with allowance := v, pendingLow := none } else { k with pendingLow := some v }

/-- SET FEEDER is carried out (R131). -/
def State.setFeederOrder (slot : Nat) (body : List Byte) (s : State) : State :=
  let n := u8 body 0
  let v := clampNat 1 4 (u8 body 1)
  if 4 ≤ n then s.completeBare slot .noSuchUnit
  else
    let s := (s.modFeeder n (Feeder.setAllowance v)).grants n
    let k := s.feeder n
    s.complete slot (okOutcome (v != u8 body 1)) false 1
      [byte k.allowance, byte (k.pendingLow.getD 0), byte k.energizing.length,
        byte (k.class1.length + k.class0.length)]

/-- SET FEEDER taken (R131). -/
def execSetFeeder (s : State) : Host.Outcome State Fault Refusal := s.orderStep 0x13 State.setFeederOrder

end Sys2Proof.Machine
end

