-- ==== Sys2Proof/Machine/DoorOrders.lean ====
section
/-! DEFINITION. SET DOOR and DOOR SIGNAL (08 R143, R144, R147), VENT PLAN and SET STAGES (09 R151, R152, R162), PARAM READ
and PARAM WRITE (11 R176). -/

namespace Sys2Proof.Machine

/-! ## SET DOOR (R143, R144) -/

/-- The entries of a cap list: fan and cap step (R143, R183). -/
def State.capList (s : State) (r : Region) : List (Nat × Nat) := (s.entries r 2).map fun e => (u8 e 0, u8 e 1)

/-- Why a SET DOOR is refused after its door number (R143). -/
def State.capsRefused (s : State) (r : Region) : Option OrderOutcome :=
  let fs := (s.capList r).map (·.1)
  if !r.ok then some .badBuffer
  else if r.length % 2 ≠ 0 ∨ 8 < fs.length ∨ noTwice fs = false then some .badParameter
  else if fs.any fun f => (s.fan f).isNone then some .noSuchUnit
  else none

/-- The effective caps after a cap list has been replaced at a door in an open state (R138, R144). That the fans of the
old list come before those of the new one is the model's choice (log 70). -/
def State.capsReplaced (d : Nat) (old : List Nat) (s : State) : State :=
  match s.door d with
  | none => s
  | some r =>
    if r.state.isOpen then forEach (old ++ r.caps.map (·.1)).eraseDups State.recomputeCap s else s

/-- A new hold limit moves a running hold timer, which may expire at once (R144). -/
def State.holdChanged (d : Nat) (before : Nat) (s : State) : State :=
  match s.door d with
  | none => s
  | some r =>
    match r.holdTimer with
    | none => s
    | some t =>
      if r.holdLimit = before then s
      else
        let t := { t with dur := 1000 * r.holdLimit }
        let s := s.modDoor d fun r => { r with holdTimer := some t }
        if t.due s.clock then s.holdExpired d else s

/-- A new run-on time moves a running run-on timer, which may expire at once (R144). -/
def State.runOnChanged (d : Nat) (before : Nat) (s : State) : State :=
  match s.door d with
  | none => s
  | some r =>
    match r.runOnTimer with
    | none => s
    | some t =>
      if r.runOn = before then s
      else
        let t := { t with dur := 1000 * r.runOn }
        let s := s.modDoor d fun r => { r with runOnTimer := some t }
        if t.due s.clock then s.runOnExpired d else s

/-- The SET DOOR body in force (R143, R183). -/
def Door.settings (r : Door) : List Byte :=
  le16 r.holdLimit ++ [byte r.passageStep, 0] ++ le16 r.runOn ++ [byte r.caps.length]

/-- SET DOOR is carried out (R143, R144). That the fields act in this order, the cap list, the request, the hold limit and
the run-on time (log 92), and that a refused SET DOOR returns an empty body (log 99), is the model's choice. -/
def State.setDoorOrder (slot : Nat) (body : List Byte) (s : State) : State :=
  let n := u8 body 0
  let p := u8 body 1
  let reg := region body 8
  match s.door n with
  | none => s.completeBare slot .noSuchUnit
  | some d =>
    match if present p 3 then s.capsRefused reg else none with
    | some out => s.completeBare slot out
    | none =>
      let hold := field (present p 0) 10 600 (u16 body 2) d.holdLimit
      let step := field (present p 1) 1 8 (u8 body 4) d.passageStep
      let runOn := field (present p 2) 0 300 (u16 body 6) d.runOn
      let carried := if present p 3 then s.capList reg else []
      let caps := if present p 3 then carried.map fun e => (e.1, min e.2 8) else d.caps
      let clamped := hold.clamped || step.clamped || runOn.clamped || carried.any fun e => decide (8 < e.2)
      let s := s.modDoor n fun d => { d with
        holdLimit := hold.value, passageStep := step.value, runOn := runOn.value, caps := caps }
      let s := if present p 3 then s.capsReplaced n (d.caps.map (·.1)) else s
      let s := if d.calling then s.writePassageOf n else s
      let s := (s.holdChanged n d.holdLimit).runOnChanged n d.runOn
      s.complete slot (okOutcome clamped) false 1 (((s.door n).map Door.settings).getD [])

/-- SET DOOR taken (R143). -/
def execSetDoor (s : State) : Host.Outcome State Fault Refusal := s.orderStep 0x14 State.setDoorOrder

/-! ## DOOR SIGNAL (R147) -/

/-- The modes of DOOR SIGNAL: the source, and the manual mode where one is named (R147, R181). -/
def signalMode : Nat → Option (Source × Option BeaconMode)
  | 0 => some (.manual, some .dark)
  | 1 => some (.manual, some .guide)
  | 2 => some (.manual, some .alarm)
  | 3 => some (.auto, none)
  | _ => none

/-- A DOOR SIGNAL whose settings have been stored becomes the door's active signal order, and ends at once where R147
says so. -/
def State.startSignal (slot d : Nat) (s : State) : State :=
  let s := ((s.endSignal d .superseded).setWork slot (.signal d)).modDoor d fun r => { r with signal := some slot }
  match s.door d with
  | none => s
  | some r =>
    if r.state = .unreachable then s.endSignal d .unreachable
    else if r.confirmed = some (wantedMode s.plan r) ∧ r.beacon = .none then s.endSignal d .ok
    else s.compareBeacon d

/-- DOOR SIGNAL is taken (R147). That a refused one returns an empty body is the model's choice (log 99). -/
def State.doorSignalOrder (slot : Nat) (body : List Byte) (s : State) : State :=
  let n := u8 body 0
  if s.ringNotRunning then s.completeBare slot .ringNotRunning
  else if (s.door n).isNone then s.completeBare slot .noSuchUnit
  else
    match signalMode (u8 body 1) with
    | none => s.completeBare slot .badParameter
    | some (src, mode) =>
      (s.modDoor n fun r => { r with source := src, manualMode := mode.getD r.manualMode }).startSignal slot n

/-- DOOR SIGNAL taken (R147). -/
def execDoorSignal (s : State) : Host.Outcome State Fault Refusal := s.orderStep 0x15 State.doorSignalOrder

/-! ## VENT PLAN (R151, R162) -/

/-- The five fire fields of a VENT PLAN body over the planner's, with whether a clamp changed a value; a start count
below the minimum count is raised to it (R151). -/
def fireFields (body : List Byte) (p : Planner) : Planner × Bool :=
  let set := u8 body 3
  let target := field (present set 0) 50 600 (u16 body 4) p.target
  let band := field (present set 1) 10 200 (u16 body 6) p.band
  let start := field (present set 2) 1 48 (u8 body 8) p.startCount
  let least := field (present set 3) 0 48 (u8 body 9) p.minCount
  let period := field (present set 4) 5 60 (u8 body 10) p.period
  ({ p with
      target := target.value, band := band.value, startCount := max start.value least.value,
      minCount := least.value, period := period.value },
    target.clamped || band.clamped || start.clamped || least.clamped || period.clamped ||
      decide (start.value < least.value))

/-- The VENT PLAN result (R151, R183). -/
def Planner.planBody (p : Planner) : List Byte :=
  [byte p.regime.code, byte p.fireCount, byte (optCode p.excluded[0]?), byte (optCode p.excluded[1]?)] ++
    le16 p.target ++ le16 p.band ++ [byte p.startCount, byte p.minCount, byte p.period]

/-- Why a VENT PLAN naming a regime is refused (R151). -/
def State.planRefused (s : State) (body : List Byte) (regime : Regime) : Option OrderOutcome :=
  if regime = .fire ∧ (Dir.ofCode? (u8 body 2)).isNone then some .badParameter
  else if regime ≠ .off ∧ s.ringNotRunning then some .ringNotRunning
  else if regime = .fire ∧ (16 ≤ u8 body 1 ∨ (s.zone (u8 body 1)).configured = false) then some .badZone
  else none

/-- VENT PLAN is carried out (R151, R162). That a refused one returns an empty body is the model's choice (log 99). -/
def State.ventPlanOrder (slot : Nat) (body : List Byte) (s : State) : State :=
  match Regime.ofCode? (u8 body 0) with
  | none => s.completeBare slot .badParameter
  | some regime =>
    match s.planRefused body regime with
    | some out => s.completeBare slot out
    | none =>
      let (p, clamped) := fireFields body s.plan
      let p := if regime = .fire then
          { p with fireZone := u8 body 1, smokeDir := (Dir.ofCode? (u8 body 2)).getD .plus } else p
      let s := State.applyRegime regime { s with plan := p }
      s.complete slot (okOutcome clamped) false 1 s.plan.planBody

/-- VENT PLAN taken (R151). -/
def execVentPlan (s : State) : Host.Outcome State Fault Refusal := s.orderStep 0x16 State.ventPlanOrder

/-! ## SET STAGES (R152) -/

/-- The groups of a SET STAGES body over the planner's, with whether a clamp changed a value (R152). -/
def stageGroups (body : List Byte) (dir : Dir) (p : Planner) : Planner × Bool :=
  let set := u8 body 0
  let counts := (List.range 5).map fun i => field (present set 0) 0 48 (u8 body (1 + i)) (p.stages.getD i 0)
  let interval := field (present set 1) 10 300 (u16 body 6) p.planInterval
  let least := field (present set 2) 0 1800 (u16 body 8) p.minRun
  let step := field (present set 3) 1 8 (u8 body 11) p.normalStep
  ({ p with
      stages := counts.map (·.value), planInterval := interval.value, minRun := least.value,
      normalDir := if present set 3 then dir else p.normalDir, normalStep := step.value },
    counts.any (·.clamped) || interval.clamped || least.clamped || step.clamped)

/-- The SET STAGES body in force, all groups present (R152, R183). -/
def Planner.stageBody (p : Planner) : List Byte :=
  byte 0x0F :: p.stages.map byte ++ le16 p.planInterval ++ le16 p.minRun ++
    [byte p.normalDir.code, byte p.normalStep]

/-- SET STAGES is carried out (R152, R156). That a refused one returns an empty body is the model's choice (log 99). -/
def State.setStagesOrder (slot : Nat) (body : List Byte) (s : State) : State :=
  let dir := Dir.ofCode? (u8 body 10)
  if present (u8 body 0) 3 && dir.isNone then s.completeBare slot .badParameter
  else
    let (p, clamped) := stageGroups body (dir.getD .plus) s.plan
    let s : State := { s with plan := p }
    s.evaluate.complete slot (okOutcome clamped) false 1 p.stageBody

/-- SET STAGES taken (R152). -/
def execSetStages (s : State) : Host.Outcome State Fault Refusal := s.orderStep 0x17 State.setStagesOrder

/-! ## PARAM READ and PARAM WRITE (R176) -/

/-- The region length that an order and its mode require (R176). -/
def paramLength (write : Bool) (mode : StepMode) (count : Nat) : Nat :=
  match mode, write with
  | .paired, _ => 4 * count
  | .increment, _ => 2 * count
  | .fixed, _ => 2 * count

/-- The parameters of a PARAM order pass the tests of R176, or the first that fails decides the outcome. -/
def State.paramRefused (s : State) (write : Bool) (body : List Byte) : Option OrderOutcome :=
  let st := u8 body 0
  let count := u16 body 4
  let reg := region body 6
  match s.station st with
  | none => some .noSuchUnit
  | some r =>
    match StepMode.ofCode? (u8 body 1) with
    | none => some .badParameter
    | some mode =>
      if count = 0 ∨ 256 < count ∨ (mode ≠ .paired ∧ 255 < u16 body 2) then some .badParameter
      else if !reg.ok then some .badBuffer
      else if reg.length ≠ paramLength write mode count then some .badParameter
      else if r.link = .down ∨ r.link = .paging ∨ r.link = .pending then some .unreachable
      else if (s.param st).isSome then some .busy
      else none

/-- PARAM READ or PARAM WRITE is taken: the context becomes active and the first frame is formed (R176, R177). A refused
one has done 0 words, which is its count (R183). -/
def State.paramOrder (write : Bool) (slot : Nat) (body : List Byte) (s : State) : State :=
  if s.ringNotRunning then s.completeBare slot .ringNotRunning
  else
    match s.paramRefused write body with
    | some out => s.complete slot out false 0 []
    | none =>
      let st := u8 body 0
      let mode := (StepMode.ofCode? (u8 body 1)).getD .increment
      let t : Transfer :=
        { slot := slot, write := write, mode := mode,
          last := (((s.station st).bind (·.base)).map (·.lastParam)).getD 0,
          offset := u16 body 6, count := u16 body 4, position := 0, current := u16 body 2, done := 0,
          frame := none, aborted := false }
      ((s.setWork slot (.param st)).setParam st (some t)).formParam st

/-- PARAM READ taken (R176). -/
def execParamRead (s : State) : Host.Outcome State Fault Refusal := s.orderStep 0x18 (State.paramOrder false)

/-- PARAM WRITE taken (R176). -/
def execParamWrite (s : State) : Host.Outcome State Fault Refusal := s.orderStep 0x19 (State.paramOrder true)

end Sys2Proof.Machine
end

