-- ==== Sys2Proof/WellFormed.lean ====
section
/-! DEFINITION. Which commands can be brought about at all: the unit numbers of 00_scope.md 0.6, the register
writes that belong to each row (R164, R181) and the addresses of the 32 KiB port. -/

namespace Sys2Proof

/-- Every store of the host lies in the 32 KiB window (10.2). -/
def storesInWindow (stores : List Host.Cell) : Bool := stores.all fun c => decide (c.1 < 0x8000)

/-- The operands of a command are ones that the part's lines and numbering allow. -/
def Instr.wellFormed : Instr → Bool
  | .powerOnReset => true
  | .softReset v => v.getLsbD 7
  | .resetDone => true
  | .ctrlMaskWrite v => !v.getLsbD 7
  | .attnWrite _ stores => storesInWindow stores
  | .postWrite _ stores => storesInWindow stores
  | .idWrite _ => true
  | .slotWithdrawn | .unknownOrderCode | .enrol | .setRing | .senseStation | .clearCounts | .zoneMap
  | .setChannel | .captureZero | .setZone | .scanZones | .fanRun | .fanStop | .fanHome | .fanLockout
  | .fanRelease | .fanUnlock | .fanProfile | .fanGroup | .fanUngroup | .setFeeder | .setDoor | .doorSignal
  | .ventPlan | .setStages | .paramRead | .paramWrite | .abort => true
  | .cycleTimerExpiry => true
  | .trainArrival _ _ => true
  | .signalDetectChange _ _ => true
  | .replyLimitExpiry tag => decide (tag < 64)
  | .tagRestEnd tag => decide (tag < 64)
  | .heldFrameExpiry st => decide (1 ≤ st ∧ st ≤ 24)
  | .pageTimeout st => decide (1 ≤ st ∧ st ≤ 24)
  | .pendingTimeout st => decide (1 ≤ st ∧ st ≤ 24)
  | .healTimeElapsed => true
  | .recloseAttemptExpiry => true
  | .staleExpiry ch => decide (ch < 96)
  | .zoneHoldExpiry z _ => decide (z < 16)
  | .stepIntervalExpiry f => decide (f < 48)
  | .energizeLimitExpiry f => decide (f < 48)
  | .rundownLimitExpiry f => decide (f < 48)
  | .reverseDwellExpiry f => decide (f < 48)
  | .doorHoldExpiry d => decide (d < 32)
  | .runOnExpiry d => decide (d < 32)
  | .planTimerExpiry => true
  | .controlTimerExpiry => true
  | .runSecondsTick => true
  | .controllerClockTick => true

end Sys2Proof
end

