-- ==== Sys2Proof/Machine/Window.lean ====
section
/-! DEFINITION. The window interface (10 R164 to R166, R174): the resets and the formatting of the window, the register
writes of the host, and the controller clock. -/

namespace Sys2Proof.Machine

/-! ## Reset and formatting (R174) -/

/-- Where READY stands in the control block (R182). -/
def readyAt : Nat := 0x02
def clockAt : Nat := 0x04

/-- Either reset: every block takes its state after reset and the formatting begins with READY clear. The window keeps
its bytes until the formatting reaches them (R174). -/
def State.resetTo (k : ResetKind) (s : State) : State :=
  { State.reset with
    pending := s.pending, mem := Memory.write s.mem readyAt 0, formatting := some k, freeIdx := s.freeIdx,
    sigA := s.sigA, sigB := s.sigB }

/-- POWER_ON_RESET: the reset line (R174). -/
def execPowerOnReset (s : State) : Host.Outcome State Fault Refusal := .next (s.resetTo .powerOn)

/-- The places the formatting writes: control block, completion flags, image counters, slots and status image; not the
journal's records nor the transfer area (R174). That 0x0180 to 0x01FF, which no region covers and R174 does not name, are
left as they stand is the model's choice (log 113). -/
def formattedPlace (a : Nat) : Bool :=
  decide (a < 0x0180) || (decide (0x0200 ≤ a) && decide (a < 0x1200)) || (decide (0x2200 ≤ a) && decide (a < 0x3600))

/-- Every entry of the status image as the part's state gives it (R174 step 4). -/
def formatImage (s : State) (m : List Host.Cell) : List Host.Cell :=
  Table.all.foldl (fun m t =>
    (List.range t.count).foldl (fun m k => Memory.writeBytes m (t.base + t.size * k) (s.imageEntry t k)) m) m

/-- The window as the formatting leaves it, without the stores the host made meanwhile: the formatted places 0 but for
the layout version and the image (R174 steps 1 to 4). -/
def formattedMem (s : State) : List Host.Cell :=
  formatImage s (Memory.writeBytes (s.mem.filter fun c => !formattedPlace c.1) 0 (le16 Config.layoutVersion))

/-- The addresses at which a store made while formatting stands: the last store there was made after the formatting had
reached the place (R174, log 7). -/
def keptStores (stores : List (Nat × Nat)) : List Nat :=
  ((stores.map (·.1)).eraseDups).filter fun a =>
    match (stores.filter fun x => x.1 == a).getLast? with
    | none => false
    | some x => !Config.formatReaches x.2

/-- The host's stores that stand are laid over the formatted window. -/
def overlay (old : List Host.Cell) (kept : List Nat) (m : List Host.Cell) : List Host.Cell :=
  kept.foldl (fun m a => Memory.write m a (Memory.read old a)) m

/-- The subject of the RESET DONE record (R174, R184). -/
def ResetKind.subject : ResetKind → Nat
  | .powerOn => 0
  | .soft => 1

/-- The clock field of the control block (R165). -/
def State.showClock (s : State) : State := s.write clockAt (le32 s.clock.toNat)

/-- RESET_DONE: the formatting ends, READY is set, and the RESET DONE record is written (R174). -/
def execResetDone (s : State) : Host.Outcome State Fault Refusal :=
  match s.formatting with
  | none => .next s
  | some k =>
    let s : State := { s with
      mem := overlay s.mem (keptStores s.formatStores) (formattedMem s), formatting := none, formatStores := [],
      jWrite := 0, jGap := 0, jSeq := 0 }
    let s := (s.write readyAt [1]).showClock
    .next ((s.journal .resetDone k.subject Config.layoutVersion 0).setAttn .resetDone)

/-! ## CTRL, ATTN, ID (R164) -/

/-- A write to CTRL: with the soft-reset command set the reset starts and the mask bits are discarded; otherwise the
mask is stored, unless the window is being formatted (R164, R174). -/
def State.writeCtrl (v : BitVec 32) (s : State) : State :=
  if v.getLsbD 7 then s.resetTo .soft
  else if s.formatting.isSome then s
  else { s with mask := v.setWidth 6 }

/-- SOFT_RESET: a CTRL write with the soft-reset command set (R164, R174). -/
def execSoftReset (v : BitVec 32) (s : State) : Host.Outcome State Fault Refusal := .next (s.writeCtrl v)

/-- CTRL_MASK_WRITE: a CTRL write with the soft-reset command clear (R164). -/
def execCtrlMaskWrite (v : BitVec 32) (s : State) : Host.Outcome State Fault Refusal := .next (s.writeCtrl v)

/-- The bytes the host stored in the window are stored as they are (10.2); while formatting each is numbered (log 7). -/
def State.hostStores (stores : List Host.Cell) (s : State) : State :=
  stores.foldl (fun s c =>
    { s with
      mem := Memory.write s.mem c.1 c.2,
      formatStores := if s.formatting.isSome then s.formatStores ++ [(c.1, s.freeIdx)] else s.formatStores,
      freeIdx := if s.formatting.isSome then s.freeIdx + 1 else s.freeIdx }) s

/-- A write to ATTN clears the bits written as 1; while formatting it is discarded (R164, R174). -/
def State.writeAttn (v : BitVec 32) (s : State) : State := if s.formatting.isSome then s else s.clearAttn v

/-- ATTN_WRITE, after the window stores the host made before it (R164, log 4). -/
def execAttnWrite (v : BitVec 32) (stores : List Host.Cell) (s : State) : Host.Outcome State Fault Refusal :=
  if storesInWindow stores then .next ((s.hostStores stores).writeAttn v) else .fault .outsideWindow

/-- ID_WRITE: a write to ID is ignored (R164). -/
def execIdWrite (_v : BitVec 32) (s : State) : Host.Outcome State Fault Refusal := .next s

/-! ## POST (R166) -/

/-- Why a post of a number is refused, by the first test that fails (R166). -/
def State.postRefused (s : State) (slot : Nat) : Option Nat :=
  if 64 ≤ slot then some reasonOutOfRange
  else if s.slotStatus slot ≠ slotPosted then some reasonNotPosted
  else if s.intake.contains slot || (s.activeOrder slot).isSome then some reasonAlreadyQueued
  else none

/-- A write to POST: the number in bits 0 to 7 is refused or joins the tail of the intake queue; while READY is clear it
is discarded (R166). -/
def State.writePost (v : BitVec 32) (s : State) : State :=
  if s.formatting.isSome then s
  else
    let slot := v.toNat % 0x100
    match s.postRefused slot with
    | some reason => s.refusePost slot reason
    | none => { s with intake := s.intake ++ [slot] }

/-- POST_WRITE, after the window stores the host made before it (R166, log 4). -/
def execPostWrite (v : BitVec 32) (stores : List Host.Cell) (s : State) : Host.Outcome State Fault Refusal :=
  if storesInWindow stores then .next ((s.hostStores stores).writePost v) else .fault .outsideWindow

/-! ## The clock (0.6, R110, R165) -/

/-- CONTROLLER_CLOCK_TICK: the clock rises by 1 and is shown while READY is set; each whole second is owed to
RUN_SECONDS_TICK (R110, R165, log 1). -/
def execControllerClockTick (s : State) : Host.Outcome State Fault Refusal :=
  let s : State := { s with
    clock := s.clock + 1,
    secondsOwed := if (s.clock + 1).toNat % 1000 = 0 then s.secondsOwed + 1 else s.secondsOwed }
  .next (if s.formatting.isSome then s else s.showClock)

/-- RUN_SECONDS_TICK: a whole second is counted by every running fan, and the remaining times of the image are
rewritten (R97, R110, R148, R163). -/
def execRunSecondsTick (s : State) : Host.Outcome State Fault Refusal :=
  if s.secondsOwed = 0 then .next s
  else
    let t : State := { s with secondsOwed := s.secondsOwed - 1, fans := s.fans.map (Option.map Fan.countSecond) }
    .next (State.refresh s (((t.handledAs .running .zones).handledAs .running .doors).handledAs .running .planner))

end Sys2Proof.Machine
end

