-- ==== Sys2Proof/Machine/Events.lean ====
section
/-! DEFINITION. The events that bring no order: the ring's (chapters 1 to 3) and the expiries of the blocks' timers
(chapters 4 to 9). An expiry whose moment has not come changes nothing (log 5). -/

namespace Sys2Proof.Machine

/-- A step that is brought about by an event, with the image brought up to it. -/
def State.eventStep (act : State → State) (s : State) : Host.Outcome State Fault Refusal :=
  .next (State.refresh s (act s))

/-! ## The ring -/

/-- CYCLE_TIMER_EXPIRY (R2). -/
def execCycleTimerExpiry (s : State) : Host.Outcome State Fault Refusal := s.eventStep State.cycleExpiry

/-- TRAIN_ARRIVAL (R6, R48, R51, R58). -/
def execTrainArrival (port : Port) (bytes : List Byte) (s : State) : Host.Outcome State Fault Refusal :=
  s.eventStep (State.arrive port bytes)

/-- SIGNAL_DETECT_CHANGE (R45, R48, R58). -/
def execSignalDetectChange (port : Port) (level : Bool) (s : State) : Host.Outcome State Fault Refusal :=
  s.eventStep (State.signalChange port level)

/-- REPLY_LIMIT_EXPIRY (R15). -/
def execReplyLimitExpiry (tag : Nat) (s : State) : Host.Outcome State Fault Refusal :=
  s.eventStep (State.atClose (State.replyLimitDue tag) (State.replyLimit tag))

/-- TAG_REST_END (R1). -/
def execTagRestEnd (tag : Nat) (s : State) : Host.Outcome State Fault Refusal := s.eventStep (State.tagRestEnd tag)

/-- HELD_FRAME_EXPIRY (R10). -/
def execHeldFrameExpiry (st : Nat) (s : State) : Host.Outcome State Fault Refusal := s.eventStep (State.heldExpiry st)

/-- PAGE_TIMEOUT (R28). -/
def execPageTimeout (st : Nat) (s : State) : Host.Outcome State Fault Refusal :=
  s.eventStep (State.atClose (fun s => (s.station st).any (Station.pageDue s.ring.cycle)) (State.pageTimedOut st))

/-- PENDING_TIMEOUT (R37). -/
def execPendingTimeout (st : Nat) (s : State) : Host.Outcome State Fault Refusal :=
  s.eventStep (State.atClose (fun s => (s.station st).any (Station.pendingDue s.ring.cycle)) (State.pendingTimedOut st))

/-- HEAL_TIME_ELAPSED (R56). -/
def execHealTimeElapsed (s : State) : Host.Outcome State Fault Refusal :=
  s.eventStep (State.atClose (fun s => s.ring.state == .folded && s.healReached) State.healEvaluate)

/-- RECLOSE_ATTEMPT_EXPIRY (R58). -/
def execRecloseAttemptExpiry (s : State) : Host.Outcome State Fault Refusal :=
  s.eventStep (State.atClose State.recloseLast State.recloseExpired)

/-! ## Channels and zones -/

/-- STALE_EXPIRY (R70). -/
def execStaleExpiry (c : Nat) (s : State) : Host.Outcome State Fault Refusal :=
  s.eventStep fun s => if (s.channel c).any (Channel.staleDue s.clock) then s.becomeStale c else s

/-- ZONE_HOLD_EXPIRY (R88). -/
def execZoneHoldExpiry (z : Nat) (k : ChKind) (s : State) : Host.Outcome State Fault Refusal :=
  s.eventStep (State.zoneHoldExpired z k)

/-! ## Fans -/

/-- STEP_INTERVAL_EXPIRY (R106). -/
def execStepIntervalExpiry (f : Nat) (s : State) : Host.Outcome State Fault Refusal := s.eventStep (State.stepExpiry f)

/-- ENERGIZE_LIMIT_EXPIRY (R105). -/
def execEnergizeLimitExpiry (f : Nat) (s : State) : Host.Outcome State Fault Refusal :=
  s.eventStep (State.energizeExpiry f)

/-- RUNDOWN_LIMIT_EXPIRY (R107, R117, R118). -/
def execRundownLimitExpiry (f : Nat) (s : State) : Host.Outcome State Fault Refusal :=
  s.eventStep (State.rundownExpiry f)

/-- REVERSE_DWELL_EXPIRY (R108). -/
def execReverseDwellExpiry (f : Nat) (s : State) : Host.Outcome State Fault Refusal :=
  s.eventStep (State.dwellExpiry f)

/-! ## Doors -/

/-- DOOR_HOLD_EXPIRY (R136). -/
def execDoorHoldExpiry (d : Nat) (s : State) : Host.Outcome State Fault Refusal :=
  s.eventStep fun s => if (s.door d).any fun r => timerDue s.clock r.holdTimer then s.holdExpired d else s

/-- RUN_ON_EXPIRY (R140). -/
def execRunOnExpiry (d : Nat) (s : State) : Host.Outcome State Fault Refusal :=
  s.eventStep fun s => if (s.door d).any fun r => timerDue s.clock r.runOnTimer then s.runOnExpired d else s

/-! ## The planner -/

/-- PLAN_TIMER_EXPIRY (R156). -/
def execPlanTimerExpiry (s : State) : Host.Outcome State Fault Refusal :=
  s.eventStep fun s => if timerDue s.clock s.plan.planTimer then s.evaluate else s

/-- The control timer's expiry: the timer restarts with the same period, then a control step and a selection are made
(R160). -/
def State.controlExpired (s : State) : State :=
  let s := s.modPlan fun p => { p with
    controlTimer := p.controlTimer.map fun t => { t with start := s.clock } }
  s.controlStep.fireSelection

/-- CONTROL_TIMER_EXPIRY (R160). -/
def execControlTimerExpiry (s : State) : Host.Outcome State Fault Refusal :=
  s.eventStep fun s => if s.plan.regime = .fire ∧ timerDue s.clock s.plan.controlTimer then s.controlExpired else s

end Sys2Proof.Machine
end

