-- ==== Sys2Proof/Machine/Dispatch.lean ====
section
/-! DEFINITION. The dispatch: one arm for each command, a direct call of its meaning. -/

namespace Sys2Proof.Machine

def exec (i : Instr) (s : State) : Host.Outcome State Fault Refusal :=
  match i with
  | .powerOnReset => Sys2Proof.Machine.execPowerOnReset s
  | .softReset v => Sys2Proof.Machine.execSoftReset v s
  | .resetDone => Sys2Proof.Machine.execResetDone s
  | .ctrlMaskWrite v => Sys2Proof.Machine.execCtrlMaskWrite v s
  | .attnWrite v stores => Sys2Proof.Machine.execAttnWrite v stores s
  | .postWrite v stores => Sys2Proof.Machine.execPostWrite v stores s
  | .idWrite v => Sys2Proof.Machine.execIdWrite v s
  | .slotWithdrawn => Sys2Proof.Machine.execSlotWithdrawn s
  | .unknownOrderCode => Sys2Proof.Machine.execUnknownOrderCode s
  | .enrol => Sys2Proof.Machine.execEnrol s
  | .setRing => Sys2Proof.Machine.execSetRing s
  | .senseStation => Sys2Proof.Machine.execSenseStation s
  | .clearCounts => Sys2Proof.Machine.execClearCounts s
  | .zoneMap => Sys2Proof.Machine.execZoneMap s
  | .setChannel => Sys2Proof.Machine.execSetChannel s
  | .captureZero => Sys2Proof.Machine.execCaptureZero s
  | .setZone => Sys2Proof.Machine.execSetZone s
  | .scanZones => Sys2Proof.Machine.execScanZones s
  | .fanRun => Sys2Proof.Machine.execFanRun s
  | .fanStop => Sys2Proof.Machine.execFanStop s
  | .fanHome => Sys2Proof.Machine.execFanHome s
  | .fanLockout => Sys2Proof.Machine.execFanLockout s
  | .fanRelease => Sys2Proof.Machine.execFanRelease s
  | .fanUnlock => Sys2Proof.Machine.execFanUnlock s
  | .fanProfile => Sys2Proof.Machine.execFanProfile s
  | .fanGroup => Sys2Proof.Machine.execFanGroup s
  | .fanUngroup => Sys2Proof.Machine.execFanUngroup s
  | .setFeeder => Sys2Proof.Machine.execSetFeeder s
  | .setDoor => Sys2Proof.Machine.execSetDoor s
  | .doorSignal => Sys2Proof.Machine.execDoorSignal s
  | .ventPlan => Sys2Proof.Machine.execVentPlan s
  | .setStages => Sys2Proof.Machine.execSetStages s
  | .paramRead => Sys2Proof.Machine.execParamRead s
  | .paramWrite => Sys2Proof.Machine.execParamWrite s
  | .abort => Sys2Proof.Machine.execAbort s
  | .cycleTimerExpiry => Sys2Proof.Machine.execCycleTimerExpiry s
  | .trainArrival port bytes => Sys2Proof.Machine.execTrainArrival port bytes s
  | .signalDetectChange port level => Sys2Proof.Machine.execSignalDetectChange port level s
  | .replyLimitExpiry tag => Sys2Proof.Machine.execReplyLimitExpiry tag s
  | .tagRestEnd tag => Sys2Proof.Machine.execTagRestEnd tag s
  | .heldFrameExpiry station => Sys2Proof.Machine.execHeldFrameExpiry station s
  | .pageTimeout station => Sys2Proof.Machine.execPageTimeout station s
  | .pendingTimeout station => Sys2Proof.Machine.execPendingTimeout station s
  | .healTimeElapsed => Sys2Proof.Machine.execHealTimeElapsed s
  | .recloseAttemptExpiry => Sys2Proof.Machine.execRecloseAttemptExpiry s
  | .staleExpiry channel => Sys2Proof.Machine.execStaleExpiry channel s
  | .zoneHoldExpiry zone kind => Sys2Proof.Machine.execZoneHoldExpiry zone kind s
  | .stepIntervalExpiry fan => Sys2Proof.Machine.execStepIntervalExpiry fan s
  | .energizeLimitExpiry fan => Sys2Proof.Machine.execEnergizeLimitExpiry fan s
  | .rundownLimitExpiry fan => Sys2Proof.Machine.execRundownLimitExpiry fan s
  | .reverseDwellExpiry fan => Sys2Proof.Machine.execReverseDwellExpiry fan s
  | .doorHoldExpiry door => Sys2Proof.Machine.execDoorHoldExpiry door s
  | .runOnExpiry door => Sys2Proof.Machine.execRunOnExpiry door s
  | .planTimerExpiry => Sys2Proof.Machine.execPlanTimerExpiry s
  | .controlTimerExpiry => Sys2Proof.Machine.execControlTimerExpiry s
  | .runSecondsTick => Sys2Proof.Machine.execRunSecondsTick s
  | .controllerClockTick => Sys2Proof.Machine.execControllerClockTick s

end Sys2Proof.Machine
end

