-- ==== Sys2Proof/Safety.lean ====
section
/-! DEFINITION. What counts as a sound state and a safe run, and the words in which the claims speak of orders: an order
that stands ready, a completed slot, and the places of the window that the part itself writes. -/

namespace Sys2Proof.Machine

/-! ## Sound states and runs -/

/-- Every command waiting in the queue is one that the part's lines and numbering allow. -/
def State.queueWellFormed (s : State) : Bool := s.pending.all Instr.wellFormed

/-- The window is held in its canonical form and lies within 32 KiB. -/
def State.windowSound (s : State) : Bool := Memory.wf s.mem && s.mem.all fun c => decide (c.1 < windowEnd)

/-- `n` steps answer a next state each. -/
def runsOn : Nat → State → Bool
  | 0, _ => true
  | n + 1, s =>
    match step s with
    | .next t => runsOn n t
    | .fault _ => false
    | .refused _ => false

/-- Every list of records has as many places as the spec gives the part, and no more stations than addresses (R1, R23,
R60, R80, R98, R123, R134, R172, R176). -/
def State.shaped (s : State) : Prop :=
  s.channels.length = 96 ∧ s.zones.length = 16 ∧ s.fans.length = 48 ∧ s.feeders.length = 4 ∧ s.doors.length = 32 ∧
    s.passageWritten.length = 48 ∧ s.params.length = 24 ∧ s.imageCounts.length = 8 ∧ s.ring.entries.length = 24 ∧
    s.stations.length ≤ 24

/-- The slot numbers of the intake queue and of the active set. -/
def State.orderNumbers (s : State) : List Nat := s.intake ++ s.active.map (·.slot)

/-- The intake queue and the active set hold no slot number twice and only numbers of slots (R166), and the journal's
write index is the number of a record (R165). -/
def State.numbersSound (s : State) : Prop :=
  s.orderNumbers.Nodup ∧ (∀ k ∈ s.orderNumbers, k < 64) ∧ s.jWrite < 256

/-- The tags of the ring record: free, resting and outstanding (R1). -/
def State.tagNumbers (s : State) : List Nat :=
  s.ring.pool ++ s.ring.resting.map (·.1) ++ s.ring.outstanding.map (·.tag)

/-- Each of the 64 tags is free, resting or outstanding, and only one of these (R1, R11, R12). -/
def State.tagsConserved (s : State) : Prop := s.tagNumbers.Perm (List.range 64)

/-- Every order that a block has in hand stands in the active set with that work, under one slot number each: the ENROL in
progress, a capture, a door's signal order, a transfer, and a fan's active part, whose entry in its order is open (R25,
R76, R112, R147, R170, R176). -/
def State.ordersOwned (s : State) : Prop :=
  (s.active.map (·.slot)).Nodup ∧
  (∀ e, s.enrol = some e → ∃ o ∈ s.active, o.slot = e.slot ∧ o.work = .enrol) ∧
  (∀ c r k, s.channel c = some r → r.capture = some k → ∃ o ∈ s.active, o.slot = k.slot ∧ o.work = .capture c) ∧
  (∀ d r k, s.door d = some r → r.signal = some k → ∃ o ∈ s.active, o.slot = k ∧ o.work = .signal d) ∧
  (∀ st x, s.param st = some x → ∃ o ∈ s.active, o.slot = x.slot ∧ o.work = .param st) ∧
  (∀ f r p, s.fan f = some r → r.part = some p →
    ∃ o ∈ s.active, o.slot = p.slot ∧
      ∃ parts clamped, o.work = .fans parts clamped ∧ FanPart.mk f none ∈ parts)

/-- The ring and the ENROL agree: an ENROL is in progress exactly in ENROLLING, and in every state but IDLE a cycle has been
opened since the ring left IDLE (R1, R25, R35, R36; the count is the model's, log 13). -/
def State.ringSound (s : State) : Prop :=
  (s.enrol.isSome = true ↔ s.ring.state = .enrolling) ∧ (s.ring.state ≠ .idle → 0 < s.ring.opened)

/-- What the planner holds of the zones is what the zones hold: the smoke count is the number of zones whose latch is set,
the tunnel level is the zones', and the configured set holds the configured zones in ascending order (R80, R92, R93,
R150). -/
def State.plannerSound (s : State) : Prop :=
  s.plan.smokeCount = ((List.range 16).filter fun z => (s.zone z).latch).length ∧ s.plan.tunnel = s.tunnelLevel ∧
    s.plan.configured = (List.range 16).filter fun z => (s.zone z).configured

/-! ## Records of the journal -/

/-- A record of this kind with these words stands among the records written between the two states, at its position and
under its sequence number (R173, R184). Said where no event has found the journal without room: what happens then is
`JournalRecordsOrCounts`. -/
def recorded (s t : State) (k : EventKind) (subject d1 d2 : Nat) : Prop :=
  s.numbersSound → Memory.wf s.mem = true → s.jGap = 0 → t.jGap = 0 →
    ∃ i < (t.jSeq - s.jSeq).toNat,
      t.readBytes (journalAt ((s.jWrite + i) % 256)) 16 =
        le16 (s.jSeq + BitVec.ofNat 16 i).toNat ++ [byte k.code, 0] ++ le32 s.clock.toNat ++ le16 subject ++ le16 d1 ++
          le16 d2 ++ [0, 0]

/-- The FAN STATE record of a fan's entry into a state from another: the codes of both, with the fault cause in the high
byte for FAULT (R122, R184). -/
def fanRecorded (s t : State) (f : Nat) (before after : FanState) (cause : FaultCause) : Prop :=
  recorded s t .fanState f before.code (after.code + if after = .fault then 0x100 * cause.code else 0)

/-! ## What going DOWN, a selection and a cap leave -/

/-- An order that was in the active set has ended with this outcome: its slot is DONE and holds it, and its flag reads 1
(R170, R183). -/
def orderEnded (s t : State) (slot : Nat) (out : OrderOutcome) : Prop :=
  ∀ o, s.activeOrder slot = some o →
    t.activeOrder slot = none ∧ t.readByte (slotAt slot) = 3 ∧ t.readByte (slotAt slot + 2) = byte out.code ∧
      t.readByte (flagAt slot) = 1

/-- The orders of the state are those of its blocks, under numbers of slots, and its window is canonical. -/
def State.ordersSound (s : State) : Prop := s.numbersSound ∧ s.ordersOwned ∧ Memory.wf s.mem = true

/-- This cap is the one that the doors in an open state give a fan with this number and top step: the lowest cap step
that lists it, or the top step (R135, R138). -/
def capOfDoors (doors : List (Option Door)) (f top cap : Nat) : Prop :=
  let lists (step : Nat) : Prop := ∃ d, some d ∈ doors ∧ d.state ≠ .none ∧ d.state ≠ .closed ∧ (f, step) ∈ d.caps
  cap ≤ top ∧ (∀ step, lists step → cap ≤ step) ∧ (cap = top ∨ lists cap)

/-- What the doors that call for a passage fan ask of it: its top step when one has the smoke mark, and otherwise the
largest passage step among them, in the + direction (R139). -/
def requestOfDoors (doors : List (Option Door)) (f top : Nat) : Speed :=
  let callers := (doors.filterMap id).filter fun x => x.passage == some f &&
    ((x.state != .none && x.state != .closed) || (x.state == .closed && x.runOnTimer.isSome))
  { step := if callers.any (fun x => x.smoke) then top else (callers.map fun x => x.passageStep).foldl max 0,
    dir := .plus }

/-- Fan `f`, whose record was `g`, has become UNREACHABLE with its station (R39, R111): its source is kept, and unless it
was so before it holds and awaits no start slot, no timer, mark, frame or part is left, its part has ended UNREACHABLE, with its
order when no other part is open, and FAN STATE is journalled. -/
def fanWentDown (s t : State) (f : Nat) (g : Fan) : Prop :=
  ∃ g', t.fan f = some g' ∧ g'.state = .unreachable ∧ g'.source = g.source ∧
    (g.state ≠ .unreachable →
      g'.part = none ∧ g'.slotHeld = false ∧ g'.timer = none ∧ g'.reversal = false ∧ g'.stepFrame = .none ∧
      fanRecorded s t f g.state .unreachable .none ∧
      (g.slotHeld = true →
        (t.feeder g.feeder).energizing.count f ≤ (s.feeder g.feeder).energizing.count f - 1) ∧
      (g.slotHeld = false →
        (t.feeder g.feeder).class1.count f ≤ (s.feeder g.feeder).class1.count f - 1 ∧
        (t.feeder g.feeder).class0.count f ≤ (s.feeder g.feeder).class0.count f - 1) ∧
      ∀ p, g.part = some p → s.ordersSound →
        (∀ o clamped, s.activeOrder p.slot = some o → o.work = .fans [{ fan := f, outcome := none }] clamped →
          orderEnded s t p.slot .unreachable) ∧
        ∀ o parts clamped, t.activeOrder p.slot = some o → o.work = .fans parts clamped →
          FanPart.mk f (some .unreachable) ∈ parts)

/-- Door `n`, whose record was `x`, has become UNREACHABLE with its station (R39, R142): no hold timer and no beacon frame
is left, the confirmed mode is UNKNOWN, a signal order has ended UNREACHABLE, and DOOR STATE is journalled. For a door that
was CLOSED this is an opening: no run-on, the fans that it lists have the caps of the doors as they now stand, and its
passage fan has the doors' request written. -/
def doorWentDown (s t : State) (n : Nat) (x : Door) : Prop :=
  ∃ smoke : Bool, (x.smoke = true → smoke = true) ∧
    (x.state = .unreachable → t.door n = some { x with smoke := smoke }) ∧
    (x.state ≠ .unreachable →
      t.door n = some { x with
        state := .unreachable, holdTimer := none, confirmed := none, beacon := .none, signal := none, smoke := smoke,
        runOnTimer := if x.state = .none ∨ x.state = .closed then none else x.runOnTimer } ∧
      (∀ k, x.signal = some k → s.ordersSound → orderEnded s t k .unreachable) ∧
      recorded s t .doorState n x.state.code DoorState.unreachable.code ∧
      (x.state = .none ∨ x.state = .closed → ∀ f g, s.fan f = some g →
        (f ∈ x.caps.map Prod.fst → ∃ g', t.fan f = some g' ∧ capOfDoors t.doors f g.top g'.cap) ∧
        (x.passage = some f → f < s.passageWritten.length →
          t.passageWritten.getD f none = some (requestOfDoors t.doors f g.top))))

/-- The numbered devices of a station that has gone DOWN (R39): its fans and doors are UNREACHABLE, its channels LOST with
the seed due, their filter and value kept, a capture ended UNREACHABLE, and CHANNEL QUALITY journalled for one that was
GOOD (R71, R72, R78). -/
def devicesWentDown (s t : State) (d : Description) : Prop :=
  (∀ i g, i < d.fans.length → s.fan (d.firstFan + i) = some g → fanWentDown s t (d.firstFan + i) g) ∧
  (∀ i x, i < d.channels.length → s.channel (d.firstChannel + i) = some x →
    (x.quality = .lost → t.channel (d.firstChannel + i) = some x) ∧
    (x.quality ≠ .lost →
      t.channel (d.firstChannel + i) = some { x with
        quality := .lost, seedDue := true, armed := false, capture := none } ∧
      (x.quality = .good →
        recorded s t .channelQuality (d.firstChannel + i) Quality.good.code Quality.lost.code) ∧
      ∀ k, x.capture = some k → s.ordersSound → orderEnded s t k.slot .unreachable)) ∧
  ∀ i x, i < d.doors.length → s.door (d.firstDoor + i) = some x → doorWentDown s t (d.firstDoor + i) x

/-- The station, whose record was `r`, has gone DOWN with this cause (R9, R38, R39): its traffic and its transfer have ended,
its base page is kept, the link-down count and WAS DOWN have changed unless a re-enrolment has failed, STATION DOWN is
journalled, and STATION MISMATCH where that is the cause, and with no ENROL in progress its numbered devices have gone with
it. -/
def stationWentDown (s t : State) (st : Nat) (r : Station) (cause : DownCause) : Prop :=
  (∃ r', t.station st = some r' ∧ r'.link = .down ∧ r'.cause = cause ∧ r'.goodRun = 0 ∧ r'.pendingSince = none ∧
    r'.linkDowns = (if r.reEnrol then r.linkDowns else min (r.linkDowns + 1) 255) ∧
    r'.wasDown = (r.wasDown || !r.reEnrol) ∧ r'.missRun = r.missRun ∧ r'.errors = r.errors ∧ r'.base = r.base ∧
    r'.reEnrol = false) ∧
  recorded s t .stationDown st cause.code 0 ∧ (cause = .mismatch → recorded s t .stationMismatch st 0 0) ∧
  (t.entry st).queue = [] ∧ (∀ o ∈ t.ring.outstanding, o.station ≠ st) ∧ t.param st = none ∧
  t.ring.cycle = s.ring.cycle ∧ t.clock = s.clock ∧ t.pending = s.pending ∧ t.intake = s.intake ∧
  (∀ y, s.param st = some y → s.ordersSound →
    orderEnded s t y.slot (if y.aborted then .aborted else .unreachable)) ∧
  ∀ d, r.description = some d → s.enrol = none → devicesWentDown s t d

/-- The direction that a selection wants (R153). -/
def Planner.want (p : Planner) : Dir := if p.regime = .fire then p.smokeDir else p.normalDir

/-- The conditions of R153 on a candidate, item by item. -/
def Planner.mayPick (p : Planner) (r : Fan) : Bool :=
  decide (r.kind = .jet ∧ r.source = .auto ∧ r.state ≠ .fault ∧ r.state ≠ .lockedOut ∧ r.state ≠ .unreachable ∧
    0 < r.cap ∧ (r.reversible = true ∨ r.commanded.dir = p.want)) &&
    r.zone.all fun z => decide (z ∉ p.excluded)

/-- Fan `f` comes before fan `g` in the order of picking: by class, then by run minutes, then by number (R154). -/
def Planner.picksBefore (p : Planner) (f : Nat) (r : Fan) (g : Nat) (q : Fan) : Prop :=
  let rank (x : Fan) : Nat := if x.commanded.step = 0 then 2 else if x.commanded.dir = p.want then 1 else 3
  rank r < rank q ∨
    (rank r = rank q ∧ (r.runMinutes < q.runMinutes ∨ (r.runMinutes = q.runMinutes ∧ f < g)))

/-- Fan `f` is kept by the minimum run when this set is picked (R157). -/
def Planner.keepsRunning (p : Planner) (now : Clock) (picked : List Nat) (f : Nat) (r : Fan) : Bool :=
  decide (p.regime = .normal ∧ p.mayPick r = true ∧ f ∉ picked ∧ 0 < r.requested.step) &&
    r.plannerStart.any fun x => decide (elapsed now x < 1000 * p.minRun)

/-- What a selection of `count` fans leaves (R153, R154, R157), under the planner as it stands after it: which fans are
picked and in what order, the numbers of candidates and of fans kept, and what every jet fan is asked for. -/
def selectionMade (s t : State) (count : Nat) : Prop :=
  let p := t.plan
  let numbered (f : Nat) (r : Fan) : Prop := f < 48 ∧ s.fan f = some r
  p.candidates = ((List.range 48).filter fun f => (s.fan f).any p.mayPick).length ∧
  p.picked.length = min count p.candidates ∧
  (∀ f ∈ p.picked, ∃ r, numbered f r ∧ p.mayPick r = true) ∧
  p.picked.Pairwise (fun f g => ∀ r q, numbered f r → numbered g q → p.picksBefore f r g q) ∧
  (∀ f r g q, f ∈ p.picked → numbered f r → g ∉ p.picked → numbered g q → p.mayPick q = true →
    p.picksBefore f r g q) ∧
  p.kept = ((List.range 48).filter fun f => (s.fan f).any (p.keepsRunning s.clock p.picked f)).length ∧
  ∀ f r, numbered f r → r.kind = .jet → ∃ r', t.fan f = some r' ∧ r'.source = r.source ∧
    let step := if p.regime = .fire then r.top else p.normalStep
    (f ∈ p.picked →
      r'.requested = { step := min step r.top, dir := p.want } ∧ r'.doorReq = false ∧
      r'.plannerStart =
        if step = 0 then none
        else if r.plannerStart = none ∨ r.requested.dir ≠ p.want then some s.clock
        else r.plannerStart) ∧
    (f ∉ p.picked → r.source = .auto → r.state ≠ .lockedOut → p.keepsRunning s.clock p.picked f r = false →
      r'.requested = { r.requested with step := 0 } ∧ r'.plannerStart = none) ∧
    (r.source = .manual ∨ r.state = .lockedOut ∨ p.keepsRunning s.clock p.picked f r = true →
      r'.requested = r.requested ∧ r'.plannerStart = r.plannerStart)

/-- Passage fan `f` has been brought to the request of the doors as they now stand: the request is the one last written,
and where it differed from the one written before an AUTO passage fan that is not LOCKED OUT asks for it (R99, R139). -/
def passageFollows (s t : State) (f : Nat) (g : Fan) : Prop :=
  let v := requestOfDoors t.doors f g.top
  t.passageWritten.getD f none = some v ∧
  (s.passageWritten.getD f none ≠ some v → g.kind = .passage → g.source = .auto → g.state ≠ .lockedOut →
    ∃ g', t.fan f = some g' ∧ g'.requested = { v with step := min v.step g.top } ∧ g'.doorReq = true)

/-- The mode that a door's beacon is wanted in (R145). -/
def beaconMode (p : Planner) (d : Door) : BeaconMode :=
  if d.source = .manual then d.manualMode
  else if p.regime = .fire then (if d.zone.any fun z => p.excluded.contains z then .alarm else .guide)
  else .dark

/-! ## Feeders -/

/-- The fans that wait on a feeder, in the order in which they are granted a slot: class 1, then class 0 (R125). -/
def Feeder.waiting (k : Feeder) : List Nat := k.class1 ++ k.class0

/-- The feeder after a fan has left its energizing set: a pending allowance that the count has come down to takes effect
(R127, R132). -/
def slotReturned (k : Feeder) (f : Nat) : Feeder :=
  let left := k.energizing.erase f
  match k.pendingLow with
  | none => { k with energizing := left }
  | some p =>
    if left.length ≤ p then { k with energizing := left, allowance := p, pendingLow := none }
    else { k with energizing := left }

/-! ## Places of the window that the part writes -/

/-- The image counters and the status image (R172, R182, R185). -/
def imagePlace (a : Nat) : Prop := (0x0140 ≤ a ∧ a < 0x0180) ∨ (0x2200 ≤ a ∧ a < 0x3600)

/-- The 64 bytes of a slot and its completion flag (R182, R183). -/
def slotPlace (slot a : Nat) : Prop := (slotAt slot ≤ a ∧ a < slotAt slot + 64) ∨ a = flagAt slot

/-- Every slot, every completion flag, the journal with its write index and gap count, and the image: what a step
other than a reset, an enrolment or a transfer may write (R165, R170, R172, R173). -/
def reactionPlace (a : Nat) : Prop :=
  (0x08 ≤ a ∧ a < 0x0A) ∨ (0x0C ≤ a ∧ a < 0x0E) ∨ (0x0100 ≤ a ∧ a < 0x0180) ∨ (0x0200 ≤ a ∧ a < 0x3600)

/-- What stands in a place after a list of stores: the last store there, or what stood before. -/
def lastStored (stores : List Host.Cell) (a : Nat) (old : Byte) : Byte :=
  stores.foldl (fun b c => if c.1 = a then c.2 else b) old

/-! ## Orders -/

/-- The order code of the row of an order (R183). -/
def orderCodeOf : Instr → Option Nat
  | .enrol => some 0x01 | .setRing => some 0x02 | .senseStation => some 0x03 | .clearCounts => some 0x04
  | .zoneMap => some 0x05 | .setChannel => some 0x06 | .captureZero => some 0x07 | .setZone => some 0x08
  | .scanZones => some 0x09 | .fanRun => some 0x0A | .fanStop => some 0x0B | .fanHome => some 0x0C
  | .fanLockout => some 0x0D | .fanRelease => some 0x0E | .fanUnlock => some 0x0F | .fanProfile => some 0x10
  | .fanGroup => some 0x11 | .fanUngroup => some 0x12 | .setFeeder => some 0x13 | .setDoor => some 0x14
  | .doorSignal => some 0x15 | .ventPlan => some 0x16 | .setStages => some 0x17 | .paramRead => some 0x18
  | .paramWrite => some 0x19 | .abort => some 0x1A
  | .powerOnReset | .softReset _ | .resetDone | .ctrlMaskWrite _ | .attnWrite _ _ | .postWrite _ _ | .idWrite _
  | .slotWithdrawn | .unknownOrderCode | .cycleTimerExpiry | .trainArrival _ _ | .signalDetectChange _ _
  | .replyLimitExpiry _ | .tagRestEnd _ | .heldFrameExpiry _ | .pageTimeout _ | .pendingTimeout _
  | .healTimeElapsed | .recloseAttemptExpiry | .staleExpiry _ | .zoneHoldExpiry _ _ | .stepIntervalExpiry _
  | .energizeLimitExpiry _ | .rundownLimitExpiry _ | .reverseDwellExpiry _ | .doorHoldExpiry _ | .runOnExpiry _
  | .planTimerExpiry | .controlTimerExpiry | .runSecondsTick | .controllerClockTick => none

/-- The slot at the head of the intake queue stands POSTED (R167); its number is one of a slot, is not in the active set,
and the window is canonical, as in every state that the part reaches (R166). -/
def State.posted (s : State) (slot : Nat) : Prop :=
  s.intake.head? = some slot ∧ slot < 64 ∧ s.slotStatus slot = slotPosted ∧ s.activeOrder slot = none ∧
    Memory.wf s.mem = true

/-- An order of this code stands ready to be taken (R167). -/
def State.orderReady (s : State) (slot code : Nat) : Prop :=
  s.posted slot ∧ (s.readByte (slotAt slot + 1)).toNat = code

/-- The parameters of the order in a slot (R183). -/
def State.orderBody (s : State) (slot : Nat) : List Byte := s.readBytes (slotAt slot + 16) 48

/-- The order of the slot has been taken and completed: the slot holds the completion, its flag reads 1, the order is
not in the active set, and ORDER DONE is set (R167, R170, R183). -/
def slotDoneWith (s t : State) (slot : Nat) (o : OrderOutcome) (clamped : Bool) (count : Nat) (body : List Byte) :
    Prop :=
  t.intake = s.intake.tail ∧ t.activeOrder slot = none ∧ t.attn.getLsbD 0 = true ∧ t.readByte (flagAt slot) = 1 ∧
    t.readBytes (slotAt slot) 64 = completedSlot (s.readBytes (slotAt slot) 64) o clamped s.clock count body

/-- The order of the slot has been taken and stays in the active set: the slot is TAKEN and its flag reads 0 (R167). -/
def slotTakenBy (s t : State) (slot : Nat) (w : Work) : Prop :=
  t.intake = s.intake.tail ∧
    t.activeOrder slot = some { slot := slot, copy := s.readBytes (slotAt slot) 64, work := w } ∧
    t.readByte (slotAt slot) = 2 ∧ t.readByte (flagAt slot) = 0

/-- The outcome and the result of a fan order whose parts have ended as they say: the first outcome that is not OK, or OK,
and the number of members with a pair for each (R120). -/
def partsResult (parts : List FanPart) : OrderOutcome × List Byte :=
  let ends := parts.map fun p => (p.fan, p.outcome.getD .ok)
  (((ends.map Prod.snd).find? fun x => x != .ok).getD .ok,
    [byte ends.length, 0] ++ ends.flatMap fun x => [byte x.1, byte x.2.code])

/-- A fan order has been taken for these fans; `out` says with which outcome the part of each has ended by now. With an
open part the order stays in the active set, and with none it is completed (R112, R120, R167). -/
def fanOrderTaken (s t : State) (slot : Nat) (ms : List Nat) (out : Nat → Option OrderOutcome) (clamped : Bool) : Prop :=
  let parts := ms.map fun f => FanPart.mk f (out f)
  ((∀ f ∈ ms, out f ≠ none) →
    slotDoneWith s t slot (partsResult parts).1 clamped parts.length (partsResult parts).2) ∧
  ((∃ f ∈ ms, out f = none) → slotTakenBy s t slot (.fans parts clamped))

/-- The fan with this record can be given a part of the slot: unless it is LOCKED OUT or UNREACHABLE its station can be
reached, and it carries no part of that slot already. -/
def State.partFits (s : State) (slot : Nat) (r : Fan) : Prop :=
  (r.state = .lockedOut ∨ r.state = .unreachable ∨ s.reachable r.station = true) ∧ ∀ p, r.part = some p → p.slot ≠ slot

/-- Of the members of a fan order, those for which `new` holds have got its part as their active part, and the part that it
replaces has ended SUPERSEDED, with its order when that was its last open part; every other part of every fan order is
left as it was (R112, R116, R120). Said of the orders whose other open parts are of fans that can be reached or are
UNREACHABLE, and that the order itself leaves. -/
def partsSuperseded (s t : State) (ms : List Nat) (new : Fan → Bool) : Prop :=
  let replaced (k : Nat) (x : FanPart) : Bool :=
    x.outcome.isNone && ms.contains x.fan && (s.fan x.fan).any fun r => new r && r.part.any fun p => p.slot == k
  ∀ k o parts clamped, s.activeOrder k = some o → o.work = .fans parts clamped → (∃ x ∈ parts, x.outcome = none) →
    (∀ x ∈ parts, x.outcome = none → replaced k x = true ∨
      ∃ r, s.fan x.fan = some r ∧ (r.state = .unreachable ∨ s.reachable r.station = true) ∧
        (x.fan ∈ ms → new r = false → r.state = .lockedOut ∨ r.state = .unreachable ∨ r.state = .fault)) →
    let now := parts.map fun x => if replaced k x then { x with outcome := some .superseded } else x
    ((∀ x ∈ now, x.outcome ≠ none) →
      t.activeOrder k = none ∧ t.readByte (flagAt k) = 1 ∧
      t.readBytes (slotAt k) 64 =
        completedSlot o.copy (partsResult now).1 clamped s.clock now.length (partsResult now).2) ∧
    ((∃ x ∈ now, x.outcome = none) → t.activeOrder k = some { o with work := .fans now clamped })

/-- The part that fan `f` carried in the order of this slot has ended with the outcome, and with it the order when that was
its last open part: it is completed as its parts have ended (R112, R120). Said of an order whose other open parts are of
fans that can be reached or are UNREACHABLE. -/
def partEnded (s t : State) (f slot : Nat) (out : OrderOutcome) : Prop :=
  ∀ o parts clamped, s.numbersSound → Memory.wf s.mem = true → s.activeOrder slot = some o →
    o.work = .fans parts clamped → FanPart.mk f none ∈ parts →
    (∀ x ∈ parts, x.outcome = none → x.fan ≠ f →
      ∃ r, s.fan x.fan = some r ∧ (r.state = .unreachable ∨ s.reachable r.station = true)) →
    let now := parts.map fun x => if x.fan = f ∧ x.outcome = none then { x with outcome := some out } else x
    ((∀ x ∈ now, x.outcome ≠ none) →
      t.activeOrder slot = none ∧ t.readByte (flagAt slot) = 1 ∧
      t.readBytes (slotAt slot) 64 =
        completedSlot o.copy (partsResult now).1 clamped s.clock now.length (partsResult now).2) ∧
    ((∃ x ∈ now, x.outcome = none) → t.activeOrder slot = some { o with work := .fans now clamped })

/-- FAN RESET has been offered for the FAN HOME part that this fan carries for the slot: it stands in the station's queue, or
that is full and the frame waits to be offered again (R117). -/
def resetOffered (t : State) (f slot : Nat) (r : Fan) : Prop :=
  let queue := (t.entry r.station).queue
  ∃ r', t.fan f = some r' ∧
    ((r'.part = some { slot := slot, work := .home .resetting } ∧
        { kind := .fanReset, payload := [byte r.index], origin := .fanReset f, held := 0 } ∈ queue) ∨
      (r'.part = some { slot := slot, work := .home .offering } ∧ 8 ≤ queue.length))

/-- The state of a fan, whose station can be reached, after its target has changed to this one (R103, R105 to R108): STOPPED
and ready with a step above 0 is QUEUED, and QUEUED without a slot is STOPPED at step 0; a start whose target falls to step 0
or turns is RUNNING DOWN, and RUNNING away from the target RAMPING. -/
def Fan.afterTarget (r : Fan) (target : Speed) : FanState :=
  let breaks : Bool := target.step == 0 || target.dir != r.commanded.dir
  match r.state with
  | .stopped =>
    if 0 < target.step ∧ ((r.heard = true ∧ r.standstill = true) ∨ (r.heard = false ∧ r.actual.step = 0)) then .queued
    else .stopped
  | .queued =>
    if r.slotHeld = true then (if breaks then .runningDown else .queued)
    else if target.step = 0 then .stopped
    else .queued
  | .energizing => if breaks then .runningDown else .energizing
  | .running => if target = r.commanded then .running else .ramping
  | .ramping => .ramping
  | .runningDown => .runningDown
  | .reverseDwell => .reverseDwell
  | .fault => .fault
  | .lockedOut => .lockedOut
  | .unreachable => .unreachable

/-- How the part of a fan stands once the fan has come to the state, commanded values and cap given (R114, R115): a FAN RUN
part has ended at RUNNING at the target, or at STOPPED with the cap 0, and a FAN STOP part at STOPPED. -/
def partEnds (state : FanState) (commanded target : Speed) (reversible : Bool) (cap : Nat) : PartWork → Option OrderOutcome
  | .run want =>
    if state = .running ∧ commanded = target then
      some (if target.step < want.step ∨ (reversible = false ∧ target.dir ≠ want.dir) then .okClamped else .ok)
    else if state = .stopped ∧ cap = 0 then some .okClamped
    else none
  | .stop => if state = .stopped then some .ok else none
  | .home _ => none
  | .lockout => none

/-- The same state but for the record of the events handled in the step under way, which only says when the image is brought up
(R172, log 8). -/
def sameButEvents (t u : State) : Prop := t = { u with events := t.events }

/-- Beside its own slot and flag and the image, an order has left every byte of the window as it was. -/
def memoryKeptBeside (s t : State) (slot : Nat) : Prop :=
  ∀ a, ¬slotPlace slot a → ¬imagePlace a → t.readByte a = s.readByte a

/-- A refused order: it completes with the outcome, this count of result items and an empty body, and nothing else of the
part's state or of the window changes (R168, R170, R183). -/
def orderRefusedCounting (s t : State) (slot : Nat) (o : OrderOutcome) (count : Nat) : Prop :=
  slotDoneWith s t slot o false count [] ∧ (∀ a, ¬slotPlace slot a → t.readByte a = s.readByte a) ∧
    t = { s with mem := t.mem, intake := s.intake.tail, attn := s.attn ||| 1 }

/-- An order refused at taking with one of the outcomes whose count is 0 (R183). -/
def orderRefused (s t : State) (slot : Nat) (o : OrderOutcome) : Prop := orderRefusedCounting s t slot o 0

/-- What the blocks' reactions to one another never change: the queue of commands, the clock, the mask, the formatting, the
pins, the fold record, the enrolment, the stations, the transfers, and the ring record but for its queues and the
originators of its frames; and of the window nothing but `reactionPlace`. -/
def reactionFrame (s t : State) : Prop :=
  t = { s with
    mem := t.mem, attn := t.attn, imageCounts := t.imageCounts, intake := t.intake, active := t.active,
    jWrite := t.jWrite, jGap := t.jGap, jSeq := t.jSeq,
    ring := { s.ring with entries := t.ring.entries, outstanding := t.ring.outstanding },
    channels := t.channels, zones := t.zones, tunnelLevel := t.tunnelLevel, fans := t.fans, feeders := t.feeders,
    doors := t.doors, passageWritten := t.passageWritten, plan := t.plan, events := t.events } ∧
  (s.numbersSound → Memory.wf s.mem = true → ∀ a, ¬reactionPlace a → t.readByte a = s.readByte a)

/-- A cycle is about to be closed, and the close tells no station of a missed cycle and finds no train lost; or its first
part has been made already (R2, R52, log 6). -/
def State.quietClose (s : State) : Prop :=
  s.beforeOpening = true ∧
    (s.ring.phase = .closing ∨
      (s.ring.phase = .running ∧ s.ring.lostTrain .a = false ∧ s.ring.lostTrain .b = false ∧
        (s.ring.kind = .one ∨ ∀ k ∈ s.stationNumbers, s.ring.heard.contains k = true)))

end Sys2Proof.Machine
end

