-- ==== Sys2Proof/Certificates/Slice0/Obligations.lean ====
section
/-! DEFINITION. The statements for the provers. A statement about an order speaks of the step that takes it: the slot at
the head of the intake queue stands POSTED with that order's code (`State.orderReady`). A statement about an event
speaks of the step in which the event stands; one about a part of an event's handling, of the operation that does it. -/

open Sys2Proof Sys2Proof.Machine

/-! ## The step -/

/-- The step takes the command at the front of the queue and carries it out with the queue's rest; with no command
waiting nothing changes. The idling is the model's choice (log 1). -/
def Obligations.StepRunsFrontCommand : Prop :=
  (∀ (c : Instr) (rest : List Instr) (s : State), s.pending = c :: rest → step s = exec c { s with pending := rest }) ∧
  ∀ s : State, s.pending = [] → step s = .next s

/-! ## Reset (10.8) -/

/-- Either reset returns every block to its state after reset, empties the intake queue and the active set, clears mask
and attention bits, clears READY and leaves every other byte of the window to the formatting. That the pins keep their
levels (log 3), and that the formatting is made whole at RESET_DONE, the reset step itself changing no byte but READY
(log 7), is the model's choice. -/
def Obligations.ResetsClearEveryBlock : Prop :=
  ∀ (s : State) (v : BitVec 32), Memory.wf s.mem = true →
    (∃ t, exec .powerOnReset s = .next t ∧
      t = { State.reset with
        pending := s.pending, mem := t.mem, formatting := some .powerOn, freeIdx := s.freeIdx, sigA := s.sigA,
        sigB := s.sigB } ∧
      ∀ a, t.readByte a = if a = 0x02 then 0 else s.readByte a) ∧
    (v.getLsbD 7 = true → ∃ t, exec (.softReset v) s = .next t ∧
      t = { State.reset with
        pending := s.pending, mem := t.mem, formatting := some .soft, freeIdx := s.freeIdx, sigA := s.sigA,
        sigB := s.sigB } ∧
      ∀ a, t.readByte a = if a = 0x02 then 0 else s.readByte a)

/-- At the end of the formatting every place of the control block, the flags, the counters, the slots and the image that
the host has not stored to behind it (`keptStores`, log 7) holds what R174 gives; the journal's older records and the
transfer area keep their bytes. The RESET DONE record stands at position 0 with sequence number 0, subject 0 or 1, the
layout version and 0; the write index becomes 1, and EVENT and RESET DONE are set, when the host has not stored behind
the formatting into its read index. That 0x0180 to 0x01FF, which no region covers, keep their bytes is the model's choice
(log 113). -/
def Obligations.ResetDoneFormatsWindow : Prop :=
  (∀ (s : State) (k : ResetKind), s.formatting = some k → Memory.wf s.mem = true →
    ∃ t, exec .resetDone s = .next t ∧
      t = { s with
        mem := t.mem, attn := t.attn, formatting := none, formatStores := [], jWrite := t.jWrite, jGap := t.jGap,
        jSeq := t.jSeq } ∧
      t.attn.getLsbD 5 = true ∧
      t.readByte 0x02 = 1 ∧ t.readBytes 0x04 4 = le32 s.clock.toNat ∧
      (0 ∉ keptStores s.formatStores → 1 ∉ keptStores s.formatStores → t.readWord 0 = 1) ∧
      (∀ a, a = 0x03 ∨ a = 0x0A ∨ a = 0x0B ∨ (0x0E ≤ a ∧ a < 0x0180) ∨ (0x0200 ≤ a ∧ a < 0x1200) →
        a ∉ keptStores s.formatStores → t.readByte a = 0) ∧
      (∀ (tab : Table) (e : Nat), e < tab.count →
        (∀ i < tab.size, tab.base + tab.size * e + i ∉ keptStores s.formatStores) →
        t.readBytes (tab.base + tab.size * e) tab.size = s.imageEntry tab e) ∧
      ∀ a, (0x0180 ≤ a ∧ a < 0x0200) ∨ (0x1210 ≤ a ∧ a < 0x2200) ∨ 0x3600 ≤ a → t.readByte a = s.readByte a) ∧
  ∀ (s : State) (k : ResetKind), s.formatting = some k → Memory.wf s.mem = true →
    0x0A ∉ keptStores s.formatStores → 0x0B ∉ keptStores s.formatStores →
    ∃ t, exec .resetDone s = .next t ∧
      t.attn = s.attn ||| 0x22 ∧ t.jWrite = 1 ∧ t.jGap = 0 ∧ t.jSeq = 1 ∧ t.readWord 0x08 = 1 ∧ t.readWord 0x0C = 0 ∧
      t.readBytes 0x1200 16 =
        le16 0 ++ [1, 0] ++ le32 s.clock.toNat ++ le16 (if k = .powerOn then 0 else 1) ++ le16 1 ++ le16 0 ++ [0, 0]

/-! ## Registers (10.1) -/

/-- The registers (10.1, 10.2, 12.1). A CTRL write with the soft-reset command clear stores the six mask bits; an ATTN
write clears each bit written as 1 and leaves the others; both are discarded while the window is being formatted. ID
reads the family code above the revision, CTRL the mask with the soft-reset command clear, POST 0 and ATTN its six bits;
a write to ID is ignored; the line is asserted while a bit is set whose mask bit is set. That the host's stores come with
ATTN_WRITE and POST_WRITE, stand in the window as they were made, and stop both rows when one lies outside the 32 KiB
port, is the model's choice (log 4). -/
def Obligations.RegistersReadAndWrite : Prop :=
  ((∀ (s : State) (v : BitVec 32), v.getLsbD 7 = false →
    (s.formatting = none → exec (.ctrlMaskWrite v) s = .next { s with mask := v.setWidth 6 }) ∧
    (s.formatting.isSome = true → exec (.ctrlMaskWrite v) s = .next s)) ∧
  ∀ (s : State) (v : BitVec 32) (stores : List Host.Cell), storesInWindow stores = true → Memory.wf s.mem = true →
    ∃ t, exec (.attnWrite v stores) s = .next t ∧
      t = { s with
        mem := t.mem, attn := if s.formatting = none then s.attn &&& ~~~(v.setWidth 6) else s.attn,
        formatStores := t.formatStores, freeIdx := t.freeIdx } ∧
      (s.formatting = none → t.formatStores = s.formatStores ∧ t.freeIdx = s.freeIdx) ∧
      ∀ a, t.readByte a = lastStored stores a (s.readByte a)) ∧
  ∀ (s : State) (v : BitVec 32) (stores : List Host.Cell),
    (s.readRegister 0).extractLsb' 16 16 = 0x2416 ∧ (s.readRegister 1).toNat = s.mask.toNat ∧ s.readRegister 2 = 0 ∧ (s.readRegister 3).toNat = s.attn.toNat ∧
    exec (.idWrite v) s = .next s ∧
    (s.interruptLine = true ↔ ∃ i < 6, s.attn.getLsbD i = true ∧ s.mask.getLsbD i = true) ∧
    (storesInWindow stores = false →
      exec (.attnWrite v stores) s = .fault .outsideWindow ∧ exec (.postWrite v stores) s = .fault .outsideWindow)

/-! ## The dispatcher (10.3) -/

/-- The intake queue (10.2, 10.3). A post is checked in the order of R166: OUT OF RANGE, NOT POSTED, ALREADY QUEUED; a
refusal is written over any earlier one and the slot is not touched; a post that passes joins the tail of the queue; the
queue and the active set hold no number twice and at most 64; while READY is clear the write is discarded. The slot is
read, and the window left, as the host's stores before the write have made it; that they come with the row is the model's
choice (log 4). A head that is not POSTED is dropped: POST REFUSED, its number and WITHDRAWN; the slot and its flag are
left. A POSTED head with an order code that R183 does not list is taken and ends BAD ORDER, and nothing else changes. -/
def Obligations.IntakeQueueChecksPosts : Prop :=
  (∀ (s : State) (v : BitVec 32) (stores : List Host.Cell), storesInWindow stores = true → Memory.wf s.mem = true →
    ∃ t, exec (.postWrite v stores) s = .next t ∧
      (s.formatting.isSome = true →
        t = { s with mem := t.mem, formatStores := t.formatStores, freeIdx := t.freeIdx } ∧
        ∀ a, t.readByte a = lastStored stores a (s.readByte a)) ∧
      (s.formatting = none →
        t = { s with mem := t.mem, attn := t.attn, intake := t.intake } ∧
        let n := v.toNat % 0x100
        let refused (reason : Nat) : Prop :=
          t.intake = s.intake ∧ t.attn = s.attn ||| 4 ∧
          ∀ a, t.readByte a =
            if a = 0x0E then byte n else if a = 0x0F then byte reason else lastStored stores a (s.readByte a)
        if 64 ≤ n then refused 2
        else if lastStored stores (0x0200 + 64 * n) (s.readByte (0x0200 + 64 * n)) ≠ 1 then refused 1
        else if n ∈ s.orderNumbers then refused 3
        else
          t.intake = s.intake ++ [n] ∧ t.attn = s.attn ∧
          ∀ a, t.readByte a = lastStored stores a (s.readByte a)) ∧
      (s.numbersSound → t.numbersSound ∧ t.orderNumbers.length ≤ 64)) ∧
  (∀ (s : State) (slot : Nat) (rest : List Nat), s.intake = slot :: rest → s.slotStatus slot ≠ 1 →
    Memory.wf s.mem = true →
    ∃ t, exec .slotWithdrawn s = .next t ∧
      t = { s with mem := t.mem, intake := rest, attn := s.attn ||| 4 } ∧
      ∀ a, t.readByte a = if a = 0x0E then byte slot else if a = 0x0F then 4 else s.readByte a) ∧
  ∀ (s : State) (slot : Nat), s.posted slot →
    ((s.readByte (slotAt slot + 1)).toNat = 0 ∨ 0x1A < (s.readByte (slotAt slot + 1)).toNat) →
    ∃ t, exec .unknownOrderCode s = .next t ∧ orderRefused s t slot .badOrder

/-- The completion of an order of the active set writes its 64 bytes: DONE, the code and the reference of the copy, the
outcome, the flags, the clock, the count, and the body padded with 0; the flag becomes 1, the order leaves the active
set, and ORDER DONE is set. Nothing else changes. -/
def Obligations.CompletionWritesSlot : Prop :=
  ∀ (s : State) (slot : Nat) (x : ActiveOrder) (o : OrderOutcome) (clamped : Bool) (count : Nat) (body : List Byte),
    Memory.wf s.mem = true → slot < 64 → s.activeOrder slot = some x → body.length ≤ 48 →
    let t := s.complete slot o clamped count body
    t = { s with mem := t.mem, attn := s.attn ||| 1, active := s.active.filter fun y => y.slot != slot } ∧
    t.readByte (flagAt slot) = 1 ∧
    t.readBytes (slotAt slot) 4 =
      [3, x.copy.getD 1 0, byte o.code, if clamped = true ∨ o = .okClamped then 1 else 0] ∧
    (x.copy.length = 64 → t.readBytes (slotAt slot + 4) 4 = (x.copy.drop 4).take 4) ∧
    t.readBytes (slotAt slot + 8) 4 = le32 s.clock.toNat ∧
    t.readBytes (slotAt slot + 12) 4 = le16 count ++ [0, 0] ∧
    t.readBytes (slotAt slot + 16) 48 = body ++ List.replicate (48 - body.length) 0 ∧
    ∀ a, ¬slotPlace slot a → t.readByte a = s.readByte a

/-! ## The journal and the image (10.6, 10.7) -/

/-- An event is recorded, recorded behind a GAP record, or counted, as R173 gives by the next position and the host's
read index; the write index and the gap count are shown; the write index never comes to stand on the read index. -/
def Obligations.JournalRecordsOrCounts : Prop :=
  ∀ (k : EventKind) (subject d1 d2 : Nat) (s : State), Memory.wf s.mem = true → s.jWrite < 256 →
    let next := (s.jWrite + 1) % 256
    let after := (s.jWrite + 2) % 256
    let record (seq : BitVec 16) (kind : EventKind) (a b c : Nat) : List Byte :=
      le16 seq.toNat ++ [byte kind.code, 0] ++ le32 s.clock.toNat ++ le16 a ++ le16 b ++ le16 c ++ [0, 0]
    let t := s.journal k subject d1 d2
    t = { s with mem := t.mem, attn := t.attn, jWrite := t.jWrite, jGap := t.jGap, jSeq := t.jSeq } ∧
    t.readWord 0x08 = t.jWrite ∧ t.readWord 0x0C = t.jGap ∧
    (t.jWrite = s.jWrite ∨ t.jWrite ≠ s.journalRead) ∧
    (∀ a, ¬((0x08 ≤ a ∧ a < 0x0A) ∨ (0x0C ≤ a ∧ a < 0x0E)) →
      ¬(journalAt s.jWrite ≤ a ∧ a < journalAt s.jWrite + 16) → ¬(journalAt next ≤ a ∧ a < journalAt next + 16) →
      t.readByte a = s.readByte a) ∧
    (s.journalRead = next →
      t.jWrite = s.jWrite ∧ t.jSeq = s.jSeq ∧ t.jGap = min (s.jGap + 1) 65535 ∧ t.attn = s.attn ||| 8 ∧
      ∀ p < 256, t.readBytes (journalAt p) 16 = s.readBytes (journalAt p) 16) ∧
    (s.journalRead ≠ next → s.jGap = 0 →
      t.jWrite = next ∧ t.jSeq = s.jSeq + 1 ∧ t.jGap = 0 ∧ t.attn = s.attn ||| 2 ∧
      t.readBytes (journalAt s.jWrite) 16 = record s.jSeq k subject d1 d2) ∧
    (s.journalRead ≠ next → s.jGap ≠ 0 → s.journalRead = after →
      t.jWrite = next ∧ t.jSeq = s.jSeq + 1 ∧ t.jGap = 1 ∧ t.attn = s.attn ||| 0xA ∧
      t.readBytes (journalAt s.jWrite) 16 = record s.jSeq .gap 0 s.jGap 0) ∧
    (s.journalRead ≠ next → s.jGap ≠ 0 → s.journalRead ≠ after →
      t.jWrite = after ∧ t.jSeq = s.jSeq + 2 ∧ t.jGap = 0 ∧ t.attn = s.attn ||| 2 ∧
      t.readBytes (journalAt s.jWrite) 16 = record s.jSeq .gap 0 s.jGap 0 ∧
      t.readBytes (journalAt next) 16 = record (s.jSeq + 1) k subject d1 d2)

/-- The image after a step (R172). Each writer shows its tables as they stood before the step, then as they stood at the end
of each of its events in the step, and at last as they stand at the end of the step. From one of these moments to the next an
entry is written when what brings its writer to rewrite it has changed (`Writer.watched`: of a station's entry each of the
two writers' own bytes, R22, R44; of the ring's all but the bytes 14 to 21, R22, R59), when its remaining time runs in an
event of the second, or when its table is rewritten whole; each such move of a table is one update of its own, which raises
begin and end by 1. So the counters of a table have been raised by the number of its updates, one for each writer and event
with a change; an entry that a writer has written holds in that writer's bytes what the last of its updates wrote, and in
the bytes that it watches what the state after the step gives; an entry that it has not written, and the counters of a table
without an update, are left. Every command that answers a next state, with the clock as it was and no formatting, has
brought the image up so: an entry that it has changed reads as the state after it gives it, and both counters of the table
show the count. So CLEAR COUNTS raises the counters of the station table once for the error counts, the ring controller's,
and once for the link monitor's bytes, where they change. What counts as one event of a writer is the model's choice (log 8). The entries hold what R185 lays out, a
NONE record its kind 0xFF and nothing else, and an address without a record 0; remaining seconds are rounded up (log 67),
the candidates are 0 in OFF (log 27), v and w are those of the last control step (logs 40, 93), and of a station a missing
first device reads 0xFF (log 33), an absent base page 0, an absent last heartbeat side A and cycle 0 (log 53): each as its
log says the model's choice or deduced. -/
def Obligations.ImageUpdateShowsEntries : Prop :=
  (∀ (old s : State) (es : List Handled), Memory.wf s.mem = true → s.imageCounts.length = 8 → s.formatting = none →
    s.events = old.events ++ es →
    let t := State.refresh old s
    let moments (w : Writer) : List (Force × Shown) :=
      ((es.filter fun e => e.writer == w).map fun e => (e.force, e.shown)) ++ [(.none, s.shown)]
    let moves (w : Writer) : List (Shown × Force × Shown) := (old.shown :: (moments w).map Prod.snd).zip (moments w)
    let writes (w : Writer) (tab : Table) (k : Nat) (x : Shown × Force × Shown) : Bool :=
      x.2.1 == .whole || (x.2.1 == .running && (s.withShown x.2.2).entryRunning tab k) ||
        w.watched tab (s.entryAt x.1 tab k) != w.watched tab (s.entryAt x.2.2 tab k)
    let updates (tab : Table) : Nat := (Writer.all.map fun w =>
      if tab ∈ w.tables then (moves w).countP fun x => (List.range tab.count).any fun k => writes w tab k x else 0).sum
    t = { s with mem := t.mem, imageCounts := t.imageCounts, events := old.events } ∧
    (∀ a, ¬imagePlace a → t.readByte a = s.readByte a) ∧
    ∀ tab : Table,
      let n := s.imageCounts.getD tab.index 0 + BitVec.ofNat 32 (updates tab)
      t.imageCounts.getD tab.index 0 = n ∧
      (0 < updates tab → t.readBytes (0x0140 + 8 * tab.index) 8 = le32 n.toNat ++ le32 n.toNat) ∧
      (updates tab = 0 → t.readBytes (0x0140 + 8 * tab.index) 8 = s.readBytes (0x0140 + 8 * tab.index) 8) ∧
      ∀ (w : Writer) (k : Nat), tab ∈ w.tables → k < tab.count →
        let at' (p : Nat × List Byte) : Nat := tab.base + tab.size * k + p.1
        let written := (moves w).filter (writes w tab k)
        (∀ x, written.getLast? = some x →
          (∀ p ∈ w.pieces tab (s.entryAt x.2.2 tab k), t.readBytes (at' p) p.2.length = p.2) ∧
          ∀ p ∈ w.watched tab (s.imageEntry tab k), t.readBytes (at' p) p.2.length = p.2) ∧
        (written = [] → ∀ p ∈ w.pieces tab (s.imageEntry tab k),
          t.readBytes (at' p) p.2.length = s.readBytes (at' p) p.2.length)) ∧
  (∀ (c : Instr) (s t : State), exec c s = .next t → s.formatting = none → t.formatting = none → t.clock = s.clock →
    Memory.wf s.mem = true → s.imageCounts.length = 8 →
    ∀ (tab : Table) (w : Writer) (k : Nat), tab ∈ w.tables → k < tab.count →
      w.watched tab (s.imageEntry tab k) ≠ w.watched tab (t.imageEntry tab k) →
      (∃ u es, t = State.refresh s u ∧ u.events = s.events ++ es) ∧
      (∀ p ∈ w.watched tab (t.imageEntry tab k),
        t.readBytes (tab.base + tab.size * k + p.1) p.2.length = p.2) ∧
      t.readBytes (0x0140 + 8 * tab.index) 8 =
        le32 (t.imageCounts.getD tab.index 0).toNat ++ le32 (t.imageCounts.getD tab.index 0).toNat) ∧
  (∀ (s : State) (slot : Nat), s.orderReady slot 0x04 → s.formatting = none → s.imageCounts.length = 8 →
    ∃ t, exec .clearCounts s = .next t ∧
      let st := u8 (s.orderBody slot) 0
      let named (p : Station → Bool) : Bool :=
        (List.range 25).any fun k => (st == 0 || k == st) && (s.station k).any p
      let charged := named fun r => r.errors % 0x10000 != 0
      let down := named fun r => r.wasDown || r.linkDowns % 0x100 != 0
      t.imageCounts.getD 3 0 = s.imageCounts.getD 3 0 + (if charged then 1 else 0) + if down then 1 else 0) ∧
  ∀ s : State,
    let g := s.ring
    let d := s.fold
    let p := s.plan
    let opt (o : Option Nat) : Byte := byte (o.getD 0xFF)
    let signed (v : Int) : List Byte := le16 (if 0 ≤ v then v.toNat else (v + 0x10000).toNat)
    let bit (b : Bool) (i : Nat) : Nat := if b then 2 ^ i else 0
    let seconds (x : Option Timer) : Nat := ((x.map fun y => y.dur - elapsed s.clock y.start).getD 0 + 999) / 1000
    let side (r : Station) : Port := (r.heard.map Prod.fst).getD .a
    let first (n : Nat) (count : Nat) : List Byte := [if count = 0 then 0xFF else byte n, byte count]
    s.imageEntry .ring 0 = padTo 128
      ([byte g.state.code, byte d.cause.code, byte (bit d.deadA 0), byte (bit d.deadB 0), byte d.runA, byte d.runB,
          byte (bit s.sigA 0 + bit s.sigB 1 + bit d.healHeld 2), 0] ++
        le16 g.interval ++ le16 g.healTime ++ le16 g.cycle.toNat ++
        [byte g.pool.length, byte (g.outstanding.countP fun o => o.delivery == .retry)] ++
        le16 g.lost ++ le16 g.late ++ le16 g.unattributed ++ le16 d.cycle.toNat ++
        le32 ((d.healStart.map fun x => elapsed s.clock x).getD 0) ++ le16 ((d.reclosing.map (·.toNat)).getD 0) ++
        le16 d.count ++ le16 d.failures ++
        [byte (s.stations.countP fun r => side r == .a), byte (s.stations.countP fun r => side r == .b),
          byte (s.stations.countP fun r => r.link != .down && r.turning)]) ∧
    (-0x8000 ≤ p.measured ∧ p.measured < 0x8000 ∧ -0x8000 ≤ p.w ∧ p.w < 0x8000 →
      s.imageEntry .regime 0 = padTo 64
        ([byte p.regime.code, byte p.tunnel, byte p.smokeCount, byte (bit p.smokeHold 0 + bit p.settling 1),
            byte p.normalDir.code, byte p.normalStep, byte p.fireZone, byte p.smokeDir.code, opt p.excluded[0]?,
            opt p.excluded[1]?, byte p.fireCount,
            byte (if p.regime = .off then 0 else (List.range 48).countP fun f => (s.fan f).any p.mayPick),
            byte p.picked.length, byte p.kept, byte p.source.code, 0] ++
          signed p.measured ++ signed p.w ++
          le16 (seconds (if p.planTimer = none then p.controlTimer else p.planTimer)))) ∧
    (∀ k, let x := s.feeder k
      s.imageEntry .feeders k = padTo 16
        [byte x.allowance, byte (x.pendingLow.getD 0), byte x.energizing.length,
          byte (x.class1.length + x.class0.length), byte x.class1.length]) ∧
    (∀ k, s.station (k + 1) = none → s.imageEntry .stations k = List.replicate 32 0) ∧
    (∀ k r, s.station (k + 1) = some r →
      s.imageEntry .stations k = padTo 32
        ([byte (k + 1), byte r.link.code, byte r.cause.code,
            byte (bit r.wasDown 0 + bit r.partFlag 1 + bit r.mismatch 2 + bit r.downstream 3 + bit r.upstream 4 +
              bit r.turning 5), byte r.missRun, byte r.linkDowns] ++
          le16 r.errors ++
          (match r.base with
            | none => List.replicate 5 0
            | some b => [byte b.kind, byte b.fans, byte b.channels, byte b.doors, byte b.lastParam]) ++
          [byte (bit (side r == .b) 0)] ++ le16 ((r.base.map (·.chainage)).getD 0) ++
          le16 ((r.heard.map fun h => h.2.toNat).getD 0) ++
          (match r.description with
            | none => [0xFF, 0, 0xFF, 0, 0xFF, 0]
            | some y => first y.firstFan y.fans.length ++ first y.firstChannel y.channels.length ++
                first y.firstDoor y.doors.length) ++
          [byte (s.entry (k + 1)).queue.length])) ∧
    (∀ k, s.channel k = none → s.imageEntry .channels k = 0xFF :: List.replicate 15 0) ∧
    (∀ k x, s.channel k = some x → -0x8000 ≤ x.value ∧ x.value < 0x8000 →
      s.imageEntry .channels k =
        [byte x.kind.code, byte x.station, byte x.index, opt x.zone, byte x.quality.code,
          byte (bit x.clamped 0 + bit x.skip 1 + bit x.capture.isSome 2), byte ((x.capture.map (·.count)).getD 0), 0] ++
        signed x.value ++ le16 x.lastRaw ++ le32 x.lastFeed.toNat) ∧
    (∀ k, let z := s.zone k
      let kinds := [z.co, z.no2, z.vis, z.airv]
      (∀ x ∈ kinds, x.members.length ≤ 4 ∧ -0x8000 ≤ x.value ∧ x.value < 0x8000) →
      s.imageEntry .zones k = padTo 32
        ([byte (bit z.configured 0 + bit z.latch 1), byte z.level, byte z.fallback, byte z.co.level, byte z.no2.level,
            byte z.vis.level] ++
          (kinds.flatMap fun x => byte (x.members.length + 16 * x.vstate.code) :: signed x.value) ++
          kinds.flatMap fun x => le24
            (if x.vstate = .held then (x.heldSince.map fun y => 1000 * z.hold - elapsed s.clock y).getD 0 else 0))) ∧
    (∀ k, s.fan k = none → s.imageEntry .fans k = 0xFF :: List.replicate 31 0) ∧
    (∀ k x, s.fan k = some x →
      s.imageEntry .fans k =
        [byte x.kind.code,
          byte (bit x.reversible 0 + bit x.doorReq 1 + bit x.slotHeld 2 + bit x.standstill 3 + bit x.plannerStart.isSome 4),
          byte x.station, byte x.index, byte x.feeder, opt x.zone, opt x.group, byte x.source.code,
          byte x.requested.step, byte x.requested.dir.code, byte x.commanded.step, byte x.commanded.dir.code,
          byte x.actual.step, byte x.actual.dir.code, byte x.cap, byte x.faultCode, byte x.state.code, byte x.cause.code,
          byte x.notReady, opt (x.part.map (·.slot)), 0, 0, 0, 0] ++
        le32 x.runMinutes ++ le32 ((x.plannerStart.map (·.toNat)).getD 0)) ∧
    (∀ k, s.door k = none → s.imageEntry .doors k = 0xFF :: List.replicate 15 0) ∧
    ∀ k x, s.door k = some x →
      s.imageEntry .doors k =
        [byte x.kind.code, byte x.station, byte x.index, opt x.zone, byte x.state.code, byte x.reported.code,
          opt x.passage, byte (bit x.calling 0 + bit x.smoke 1 + bit (x.source == .manual) 2)] ++
        le16 (seconds x.holdTimer) ++ le16 (seconds x.runOnTimer) ++
        [byte x.caps.length, byte (beaconMode p x).code, byte ((x.confirmed.map BeaconMode.code).getD 0xFF), opt x.signal]

/-! ## Orders of the ring and the stations (chapters 1, 2 and 10) -/

/-- SET RING: 0 leaves a setting; an interval is rounded down to a 5 ms step and clamped to 5 to 50, a heal time clamped
to 500 to 30000; OK CLAMPED when rounding or clamping changed a value; the result holds both values in force. It is taken
in every ring state and changes nothing else. -/
def Obligations.SetRingStoresSettings : Prop :=
  ∀ (s : State) (slot : Nat), s.orderReady slot 0x02 →
    ∃ t, exec .setRing s = .next t ∧
      let b := s.orderBody slot
      let iv := if u16 b 0 = 0 then s.ring.interval else clampNat 5 50 (u16 b 0 / 5 * 5)
      let ht := if u16 b 2 = 0 then s.ring.healTime else clampNat 500 30000 (u16 b 2)
      t = { s with
        mem := t.mem, imageCounts := t.imageCounts, intake := s.intake.tail, attn := s.attn ||| 1,
        ring := { s.ring with interval := iv, healTime := ht } } ∧
      slotDoneWith s t slot
        (if (u16 b 0 ≠ 0 ∧ iv ≠ u16 b 0) ∨ (u16 b 2 ≠ 0 ∧ ht ≠ u16 b 2) then .okClamped else .ok) false 1
        (le16 iv ++ le16 ht) ∧
      memoryKeptBeside s t slot

/-- SENSE STATION returns a snapshot of the station's record as it stands, with its queue depth, intake state and pending
count, in every ring state; an address without a record ends NO SUCH UNIT. That a missing first device reads 0xFF with
count 0 is deduced (log 33); that a base page and a last heartbeat not yet held read 0, and the side A, is the model's
choice (log 53). -/
def Obligations.SenseStationReturnsSnapshot : Prop :=
  ∀ (s : State) (slot : Nat), s.orderReady slot 0x03 →
    ∃ t, exec .senseStation s = .next t ∧
      let st := u8 (s.orderBody slot) 0
      (s.station st = none → orderRefused s t slot .noSuchUnit) ∧
      ∀ r, s.station st = some r →
        t = { s with mem := t.mem, intake := s.intake.tail, attn := s.attn ||| 1 } ∧
        (∀ a, ¬slotPlace slot a → t.readByte a = s.readByte a) ∧
        slotDoneWith s t slot .ok false 1
          ([byte st, byte r.link.code, byte r.cause.code,
              byte (flagByte [r.wasDown, r.partFlag, r.mismatch, r.downstream, r.upstream, r.turning]), byte r.missRun,
              byte r.linkDowns] ++ le16 r.errors ++
            (match r.base with
              | none => List.replicate 5 0
              | some p => [byte p.kind, byte p.fans, byte p.channels, byte p.doors, byte p.lastParam]) ++
            [byte (if r.heard.any (fun h => h.1 == .b) then 1 else 0)] ++
            le16 ((r.base.map (·.chainage)).getD 0) ++ le16 ((r.heard.map fun h => h.2.toNat).getD 0) ++
            (match r.description with
              | none => [0xFF, 0, 0xFF, 0, 0xFF, 0]
              | some d =>
                [byte (if d.fans.length = 0 then 0xFF else d.firstFan), byte d.fans.length,
                  byte (if d.channels.length = 0 then 0xFF else d.firstChannel), byte d.channels.length,
                  byte (if d.doors.length = 0 then 0xFF else d.firstDoor), byte d.doors.length]) ++
            [byte (s.entry st).queue.length, byte (s.entry st).intake.code, byte (s.entry st).replies])

/-- CLEAR COUNTS zeroes the error count and the link-down count and clears WAS DOWN of the station named, or of every
enrolled station for 0, and leaves everything else; a named address without a record ends NO SUCH UNIT; 0 ends OK even
when the table is empty. It is taken in every ring state. -/
def Obligations.ClearCountsZeroesCounts : Prop :=
  ∀ (s : State) (slot : Nat), s.orderReady slot 0x04 →
    ∃ t, exec .clearCounts s = .next t ∧
      let st := u8 (s.orderBody slot) 0
      let cleared (r : Station) : Station := { r with errors := 0, linkDowns := 0, wasDown := false }
      (st ≠ 0 → s.station st = none → orderRefused s t slot .noSuchUnit) ∧
      (st = 0 ∨ (s.station st).isSome = true →
        slotDoneWith s t slot .ok false 0 [] ∧ memoryKeptBeside s t slot ∧
        t = { s with
          mem := t.mem, imageCounts := t.imageCounts, intake := s.intake.tail, attn := s.attn ||| 1,
          stations := if st = 0 then s.stations.map cleared else s.stations.modify (st - 1) cleared })

/-- ENROL taken in IDLE or CLOSED: every long order in progress ends RESURVEYED, of a fan order the parts still open,
with its slot completed (R25); the station table is emptied, every fan, channel and door record becomes NONE, zones
are emptied and keep their settings, feeders keep their allowances, a pending one taking effect, the regime is OFF
with the settings kept, the fire zone and the smoke direction among them, and the smoke count and the tunnel level 0
and the configured set empty with the zones (where they were those of the zones, `State.plannerSound`), queues, tags
and pointers are cleared, and an addressing attempt is asked for; from IDLE its train is sent at once under the next
cycle number (the model's choice, log 32), unless B-receive has no signal: then the ENROL ends by a fold and the ring
is IDLE again. In the other ring states ENROL is refused: BUSY in ENROLLING, RING FOLDED in FOLDED and RECLOSING. That
both RING FOLDED endings and a resurveyed CAPTURE ZERO carry the count 1 and an empty body (log 11), and that the
planner's measurement is forgotten (log 27), is deduced; that the heal mark returns with the fold items to its value
after reset is the model's choice (log 97). -/
def Obligations.EnrolStartsAfreshOrIsRefused : Prop :=
  (∀ (s : State) (slot : Nat), s.orderReady slot 0x01 → s.ring.state = .idle ∨ s.ring.state = .closed → s.numbersSound →
    ∃ t, exec .enrol s = .next t ∧
      t.intake = s.intake.tail ∧ t.attn.getLsbD 4 = true ∧ t.pending = s.pending ∧ t.clock = s.clock ∧
      t.mask = s.mask ∧ t.sigA = s.sigA ∧ t.sigB = s.sigB ∧ t.formatting = s.formatting ∧
      t.secondsOwed = s.secondsOwed ∧ t.ring.interval = s.ring.interval ∧ t.ring.healTime = s.ring.healTime ∧
      t.stations = [] ∧ t.readBytes 0x10 4 = [0, 0, 0, 0] ∧
      (∀ i, t.fan i = none ∧ t.channel i = none ∧ t.door i = none ∧ t.param i = none) ∧
      (∀ z < 16, ∃ airv : Nat, t.zone z = { s.zone z with
        co := .reset, no2 := .reset, vis := .reset, airv := { ZoneKind.reset with level := airv }, level := 0,
        latch := false }) ∧
      t.tunnelLevel = 0 ∧
      (∀ k, t.feeder k = { Feeder.reset with
        allowance := (s.feeder k).pendingLow.getD (s.feeder k).allowance }) ∧
      (t.plan.regime = .off ∧ t.plan.excluded = [] ∧ t.plan.picked = [] ∧ t.plan.fireCount = 0 ∧
        t.plan.planTimer = none ∧ t.plan.controlTimer = none ∧ t.plan.smokeHold = false ∧ t.plan.measured = 0 ∧
        t.plan.source = .none ∧ t.plan.stages = s.plan.stages ∧ t.plan.planInterval = s.plan.planInterval ∧
        t.plan.minRun = s.plan.minRun ∧ t.plan.normalDir = s.plan.normalDir ∧
        t.plan.normalStep = s.plan.normalStep ∧ t.plan.target = s.plan.target ∧ t.plan.band = s.plan.band ∧
        t.plan.startCount = s.plan.startCount ∧ t.plan.minCount = s.plan.minCount ∧
        t.plan.period = s.plan.period ∧ t.plan.fireZone = s.plan.fireZone ∧
        t.plan.smokeDir = s.plan.smokeDir) ∧
      (s.shaped → s.plannerSound → t.plan.smokeCount = 0 ∧ t.plan.tunnel = 0 ∧ t.plan.configured = []) ∧
      (t.ring.outstanding = [] ∧ t.ring.pool = List.range 64 ∧ t.ring.resting = [] ∧ t.ring.framePtr = 1 ∧
        t.ring.slotPtr = 1 ∧ t.ring.entries = List.replicate 24 RingEntry.reset) ∧
      (∀ a, 0x3600 ≤ a → t.readByte a = s.readByte a) ∧
      (∀ o ∈ s.active, s.ordersSound →
        let ended (out : OrderOutcome) (clamped : Bool) (count : Nat) (body : List Byte) : Prop :=
          t.activeOrder o.slot = none ∧ t.readByte (flagAt o.slot) = 1 ∧
          t.readBytes (slotAt o.slot) 64 = completedSlot o.copy out clamped s.clock count body
        (∀ c, o.work = .capture c → ended .resurveyed false 1 []) ∧
        (∀ d x, o.work = .signal d → s.door d = some x →
          ended .resurveyed false 1 [byte d, byte x.source.code, byte (beaconMode s.plan x).code,
            byte ((x.confirmed.map BeaconMode.code).getD 0xFF)]) ∧
        (∀ st x, o.work = .param st → s.param st = some x → x.slot = o.slot →
          ended .resurveyed false x.done
            ([byte st, if x.write then 1 else 0, byte x.mode.code, 0] ++ le16 x.done ++ le16 x.position ++ le16 0)) ∧
        ∀ parts clamped, o.work = .fans parts clamped →
          let outcome (p : FanPart) : OrderOutcome := p.outcome.getD .resurveyed
          ended (((parts.map outcome).find? fun x => x != .ok).getD .ok) clamped parts.length
            ([byte parts.length, 0] ++ parts.flatMap fun p => [byte p.fan, byte (outcome p).code])) ∧
      (s.ring.state = .closed →
        t.ring.state = .enrolling ∧ t.ring.trainWide = [.clearAddress, .takeAddress 1 false] ∧
        t.ring.cycle = s.ring.cycle ∧ t.fold = { Fold.reset with count := s.fold.count, failures := s.fold.failures }) ∧
      (s.ring.state = .idle → s.sigB = true →
        t.ring.state = .enrolling ∧ t.ring.cycle = s.ring.cycle + 1 ∧
        t.ring.timer = some { start := s.clock, dur := s.ring.interval } ∧
        t.ring.trainA = some { frames := [.wide .clearAddress, .wide (.takeAddress 1 false)],
                               assign := List.replicate 16 0, accepted := false } ∧
        t.ring.trainB = none ∧ t.ring.trainWide = [] ∧ t.ring.phase = .running) ∧
      (s.ring.state = .closed ∨ s.sigB = true →
        t.enrol = some { slot := slot, failures := 0, addressed := false, probe := .none, excess := false,
                         overCapacity := false }) ∧
      (s.ring.state = .idle → s.sigB = false →
        t.ring.state = .idle ∧ t.enrol = none ∧ t.fold.count = min (s.fold.count + 1) 65535) ∧
      (s.ordersOwned → s.ring.state = .closed ∨ s.sigB = true → slotTakenBy s t slot .enrol) ∧
      (s.ordersOwned → s.ring.state = .idle → s.sigB = false → slotDoneWith s t slot .ringFolded false 1 [])) ∧
  ∀ (s : State) (slot : Nat), s.orderReady slot 0x01 → s.ring.state ≠ .idle → s.ring.state ≠ .closed →
    ∃ t, exec .enrol s = .next t ∧
      (s.ring.state = .enrolling → orderRefused s t slot .busy) ∧
      (s.ring.state ≠ .enrolling → orderRefusedCounting s t slot .ringFolded 1)

/-- ABORT: a number of 64 or above ends BAD PARAMETER; a slot without a long order in the active set ends NOT ACTIVE;
with one, the ABORT itself ends OK. The named ENROL ends ABORTED with the table empty and the ring IDLE; a CAPTURE ZERO
with its channel's zero as it was; a fan order of one fan with the requested values made the commanded ones, at the step
that R119 gives for the fan's state; a fan order of any members likewise in every part still open, and it completes with
the outcomes of all (R119, R120); a DOOR SIGNAL with source, mode and beacon frame as they are (R147); a transfer at once
when no frame of it is in flight, and otherwise it is marked and waits. That an aborted ENROL and CAPTURE ZERO carry the
count 1 and an empty body is deduced (log 11). -/
def Obligations.AbortEndsNamedOrder : Prop :=
  ∀ (s : State) (slot : Nat), s.orderReady slot 0x1A → s.numbersSound →
    ∃ t, exec .abort s = .next t ∧
      let named := u8 (s.orderBody slot) 0
      (64 ≤ named → orderRefused s t slot .badParameter) ∧
      (named < 64 → (∀ o, s.activeOrder named = some o → o.work = .quick) → orderRefusedCounting s t slot .notActive 0) ∧
      (∀ o, named < 64 → s.activeOrder named = some o → o.work ≠ .quick → slotDoneWith s t slot .ok false 0 []) ∧
      (∀ o c r k, named < 64 → s.activeOrder named = some o → o.work = .capture c → s.channel c = some r →
        r.capture = some k → k.slot = named →
        t = { s with
          mem := t.mem, imageCounts := t.imageCounts, attn := s.attn ||| 1, intake := s.intake.tail,
          active := s.active.filter fun x => x.slot != named,
          channels := s.channels.set c (some { r with capture := none }) } ∧
        t.readBytes (slotAt named) 64 = completedSlot o.copy .aborted false s.clock 1 [] ∧
        t.readByte (flagAt named) = 1) ∧
      (∀ o e, named < 64 → s.activeOrder named = some o → o.work = .enrol → s.enrol = some e → e.slot = named →
        t.enrol = none ∧ t.stations = [] ∧ t.ring.state = .idle ∧ t.ring.timer = none ∧ t.activeOrder named = none ∧
        t.fans = s.fans ∧ t.channels = s.channels ∧ t.doors = s.doors ∧ t.zones = s.zones ∧ t.plan = s.plan ∧
        t.readBytes (slotAt named) 64 = completedSlot o.copy .aborted false s.clock 1 [] ∧
        t.readByte (flagAt named) = 1 ∧ t.readBytes 0x10 4 = [0, 0, 0, 0]) ∧
      (∀ o f r p clamped, named < 64 → s.activeOrder named = some o →
        o.work = .fans [{ fan := f, outcome := none }] clamped → s.fan f = some r → r.part = some p → p.slot = named →
        let step :=
          if r.state = .running ∨ r.state = .ramping then r.commanded.step
          else if r.state = .energizing ∨ (r.state = .queued ∧ r.slotHeld = true) then 1
          else 0
        (∃ r', t.fan f = some r' ∧ r'.requested = { step := step, dir := r.commanded.dir } ∧ r'.source = r.source ∧
          r'.part = none) ∧
        t.activeOrder named = none ∧ t.readByte (flagAt named) = 1 ∧
        t.readBytes (slotAt named) 64 = completedSlot o.copy .aborted clamped s.clock 1 [1, 0, byte f, 0x22]) ∧
      (∀ o parts clamped, named < 64 → s.activeOrder named = some o → o.work = .fans parts clamped →
        (parts.map (·.fan)).Nodup → (∃ p ∈ parts, p.outcome = none) →
        (∀ p ∈ parts, p.outcome = none → ∃ r q, s.fan p.fan = some r ∧ r.part = some q ∧ q.slot = named ∧
          s.reachable r.station = true) →
        let outcome (p : FanPart) : OrderOutcome := p.outcome.getD .aborted
        t.activeOrder named = none ∧ t.readByte (flagAt named) = 1 ∧
        t.readBytes (slotAt named) 64 =
          completedSlot o.copy (((parts.map outcome).find? fun x => x != .ok).getD .ok) clamped s.clock parts.length
            ([byte parts.length, 0] ++ parts.flatMap fun p => [byte p.fan, byte (outcome p).code]) ∧
        ∀ f r, s.fan f = some r → ∃ r', t.fan f = some r' ∧ r'.source = r.source ∧
          let waits := r.state = .queued ∧ r.slotHeld = false
          (FanPart.mk f none ∈ parts →
            r'.part = none ∧ (waits → r'.requested.step ≤ 1) ∧
            (¬waits → r'.requested = {
              step :=
                if r.state = .running ∨ r.state = .ramping then r.commanded.step
                else if r.state = .energizing ∨ r.state = .queued then 1
                else 0,
              dir := r.commanded.dir })) ∧
          (FanPart.mk f none ∉ parts → r'.requested = r.requested)) ∧
      (∀ o d x, named < 64 → s.activeOrder named = some o → o.work = .signal d → s.door d = some x →
        x.signal = some named →
        t = { s with
          mem := t.mem, imageCounts := t.imageCounts, attn := s.attn ||| 1, intake := s.intake.tail,
          active := s.active.filter fun y => y.slot != named, doors := s.doors.set d (some { x with signal := none }) } ∧
        t.readByte (flagAt named) = 1 ∧
        t.readBytes (slotAt named) 64 = completedSlot o.copy .aborted false s.clock 1
          [byte d, byte x.source.code, byte (beaconMode s.plan x).code,
            byte ((x.confirmed.map BeaconMode.code).getD 0xFF)]) ∧
      (∀ o st x, named < 64 → s.activeOrder named = some o → o.work = .param st → s.param st = some x →
        x.slot = named → x.frame.any (·.sent) = true →
        t = { s with
          mem := t.mem, attn := s.attn ||| 1, intake := s.intake.tail,
          params := s.params.set (st - 1) (some { x with aborted := true }) } ∧
        ∀ a, ¬slotPlace slot a → t.readByte a = s.readByte a) ∧
      (∀ o st x, named < 64 → s.activeOrder named = some o → o.work = .param st → s.param st = some x →
        x.slot = named → x.frame.any (·.sent) = false →
        t = { s with
          mem := t.mem, attn := s.attn ||| 1, intake := s.intake.tail,
          active := s.active.filter fun y => y.slot != named, params := s.params.set (st - 1) none } ∧
        t.readBytes (slotAt named) 64 =
          completedSlot o.copy .aborted false s.clock x.done
            ([byte st, byte (if x.write then 1 else 0), byte x.mode.code, 0] ++ le16 x.done ++ le16 x.position ++
              le16 0))

/-! ## Orders of channels and zones (chapters 4 and 5) -/

/-- ZONE MAP tests its region (BAD BUFFER) and its length (BAD PARAMETER) before any entry and then shows 0 applied and
no failing position (the position is the model's choice, log 34). Otherwise its entries are applied one at a time, each
whole, up to the first that fails: the order ends with that one's outcome, the count applied and its position, or OK. An
entry of no kind or with no zone number ends BAD PARAMETER (before its unit is looked at: deduced, log 59), one whose
unit is not numbered NO SUCH UNIT; neither changes anything, nor does one that names the present zone. A channel leaves
the members of its old zone and joins those of the new one, in a kind that has room; a full kind refuses it (not for its
present zone: log 57). A fan's zone is stored, and in FIRE an AUTO jet fan in an excluded zone is asked for step 0. A
door's zone is stored, its smoke mark is set when it is open and the zone's smoke latch is set, its passage fan then
following, and its beacon is offered the mode now wanted, but not while the door is UNREACHABLE (deduced, log 28) (R83,
R84, R141, R145, R159); that one which a full queue refused before is offered here too (log 100), and that the
smoke mark and the passage request come before the beacon (log 109), is the model's choice.
Each applied entry is an event of its own for the tables it changes: it shows them as it has left them, so that two gradings
of one order are two updates of the zone table (R172, `ImageUpdateShowsEntries`; what counts as one event is the model's
choice, log 8). For a list of numbered fans only, and for one entry of a channel, the same is said of the whole order. -/
def Obligations.ZoneMapAppliesEntries : Prop :=
  (∀ (s : State) (slot : Nat), s.orderReady slot 0x05 → s.numbersSound →
    ∃ t, exec .zoneMap s = .next t ∧
      let offset := u16 (s.orderBody slot) 0
      let length := u16 (s.orderBody slot) 2
      let entry (i j : Nat) : Nat := (s.readByte (offset + 4 * i + j)).toNat
      let refused (o : OrderOutcome) : Prop :=
        slotDoneWith s t slot o false 0 (le16 0 ++ le16 0xFFFF) ∧
        t = { s with mem := t.mem, intake := s.intake.tail, attn := s.attn ||| 1 } ∧
        ∀ a, ¬slotPlace slot a → t.readByte a = s.readByte a
      (offset < 0x3600 ∨ 0x8000 < offset + length → refused .badBuffer) ∧
      (0x3600 ≤ offset → offset + length ≤ 0x8000 → length % 4 ≠ 0 → refused .badParameter) ∧
      (0x3600 ≤ offset → offset + length ≤ 0x8000 → length % 4 = 0 →
        (∀ i < length / 4, entry i 0 = 2 ∧ (s.fan (entry i 1)).isSome = true ∧
          (entry i 2 < 16 ∨ entry i 2 = 0xFF)) →
        slotDoneWith s t slot .ok false (length / 4) (le16 (length / 4) ++ le16 0xFFFF) ∧
        reactionFrame s t ∧
        t.channels = s.channels ∧ t.zones = s.zones ∧ t.doors = s.doors ∧ t.plan = s.plan ∧
        (∀ f r, s.fan f = some r → (∀ i < length / 4, entry i 1 ≠ f) →
          ∃ r', t.fan f = some r' ∧ r'.zone = r.zone ∧ r'.requested = r.requested ∧ r'.source = r.source) ∧
        ∀ f r i, s.fan f = some r → i < length / 4 → entry i 1 = f → (∀ j < length / 4, i < j → entry j 1 ≠ f) →
          ∃ r', t.fan f = some r' ∧ r'.source = r.source ∧
            r'.zone = (if entry i 2 = 0xFF then none else some (entry i 2)) ∧
            (s.plan.regime = .fire → r.kind = .jet → r.source = .auto → r.state ≠ .lockedOut →
              (∀ j < i, entry j 1 ≠ f) → r.zone ≠ some (entry i 2) → entry i 2 ∈ s.plan.excluded →
              entry i 2 ≠ 0xFF → r'.requested = { r.requested with step := 0 }))) ∧
  (∀ (s : State) (slot : Nat), s.orderReady slot 0x05 → s.numbersSound → s.ordersOwned →
    let offset := u16 (s.orderBody slot) 0
    let n := u16 (s.orderBody slot) 2 / 4
    0x3600 ≤ offset → offset + 4 * n ≤ 0x8000 → u16 (s.orderBody slot) 2 = 4 * n →
    let entry (i : Nat) : List Byte := s.readBytes (offset + 4 * i) 4
    let applied (k : Nat) : State := (List.range k).foldl (fun u i => (u.mapEntry (entry i)).2) (s.takeHead slot)
    let outcome (i : Nat) : OrderOutcome := ((applied i).mapEntry (entry i)).1
    ∃ t, ∃ k ≤ n, exec .zoneMap s = .next t ∧ (∀ i < k, outcome i = .ok) ∧ (k < n → outcome k ≠ .ok) ∧
      slotDoneWith s t slot (if k < n then outcome k else .ok) false k
        (le16 k ++ le16 (if k < n then k else 0xFFFF)) ∧
      t = { applied k with
        mem := t.mem, imageCounts := t.imageCounts, attn := t.attn, active := t.active, events := s.events } ∧
      (∃ u, t = State.refresh s u ∧ u.events = (applied k).events) ∧
      ∀ a, ¬slotPlace slot a → ¬imagePlace a → t.readByte a = (applied k).readByte a) ∧
  (∀ (s : State) (e : List Byte), s.shaped →
    let kind := u8 e 0
    let n := u8 e 1
    let zone := u8 e 2
    let dest : Option Nat := if zone = 0xFF then none else some zone
    let odd := kind = 0 ∨ 3 < kind ∨ (16 ≤ zone ∧ zone ≠ 0xFF)
    let out := (s.mapEntry e).1
    let t := (s.mapEntry e).2
    let shows (ws : List Writer) : Prop := ∃ es,
      t.events = s.events ++ es ++ ws.map fun w => { writer := w, force := .none, shown := t.shown }
    (out = .ok →
      (kind = 1 → shows [.channels, .zones]) ∧ (kind = 2 → shows [.fans, .planner]) ∧ (kind = 3 → shows [.doors])) ∧
    (odd → s.mapEntry e = (.badParameter, s)) ∧
    (¬odd → (kind = 1 → s.channel n = none) → (kind = 2 → s.fan n = none) → (kind = 3 → s.door n = none) →
      s.mapEntry e = (.noSuchUnit, s)) ∧
    (∀ c, ¬odd → kind = 1 → s.channel n = some c →
      let full := zone ≠ 0xFF ∧ 4 ≤ ((s.zone zone).kind c.kind).members.length
      (c.zone = dest → out = .ok ∧ sameButEvents t s) ∧
      (c.zone ≠ dest → full → s.mapEntry e = (.badParameter, s)) ∧
      (c.zone ≠ dest → ¬full → out = .ok ∧ reactionFrame s t ∧
        t.channels = s.channels.set n (some { c with zone := dest }) ∧
        (zone ≠ 0xFF →
          ((t.zone zone).kind c.kind).members.Perm (n :: ((s.zone zone).kind c.kind).members)) ∧
        ∀ z, c.zone = some z → z < 16 →
          ((t.zone z).kind c.kind).members = ((s.zone z).kind c.kind).members.erase n)) ∧
    (∀ f, ¬odd → kind = 2 → s.fan n = some f →
      let out' := s.plan.regime = .fire ∧ zone ≠ 0xFF ∧ zone ∈ s.plan.excluded ∧ f.kind = .jet ∧ f.source = .auto ∧
        f.state ≠ .lockedOut
      (f.zone = dest → out = .ok ∧ sameButEvents t s) ∧
      (f.zone ≠ dest → ¬out' →
        out = .ok ∧ sameButEvents t { s with fans := s.fans.set n (some { f with zone := dest }) }) ∧
      (f.zone ≠ dest → out' → out = .ok ∧ reactionFrame s t ∧ t.plan = s.plan ∧
        ∃ f', t.fan n = some f' ∧ f'.zone = dest ∧ f'.requested = { f.requested with step := 0 } ∧
          f'.plannerStart = none)) ∧
    ∀ d, ¬odd → kind = 3 → s.door n = some d →
      let marked : Bool := decide (d.state ≠ .none ∧ d.state ≠ .closed ∧ d.smoke = false ∧ zone ≠ 0xFF) &&
        (s.zone zone).latch
      let wanted := beaconMode s.plan { d with zone := dest }
      let offers := d.state ≠ .unreachable ∧ d.beacon = .none ∧ d.confirmed ≠ some wanted
      let frame : QFrame :=
        { kind := .doorBeacon, payload := [byte d.index, byte wanted.code], origin := .beacon n wanted, held := 0 }
      (d.zone = dest → out = .ok ∧ sameButEvents t s) ∧
      (d.zone ≠ dest → s.reachable d.station = true →
        out = .ok ∧ reactionFrame s t ∧ t.channels = s.channels ∧ t.zones = s.zones ∧ t.plan = s.plan ∧
        (∃ beacon : FrameStage,
          t.doors = s.doors.set n (some { d with zone := dest, smoke := d.smoke || marked, beacon := beacon }) ∧
          (¬offers → beacon = d.beacon) ∧
          (offers → (beacon = .queued ∧ frame ∈ (t.entry d.station).queue) ∨
            (beacon = .none ∧ 8 ≤ (t.entry d.station).queue.length))) ∧
        (marked = false → t.fans = s.fans ∧ t.passageWritten = s.passageWritten) ∧
        ∀ f g, marked = true → d.passage = some f → s.fan f = some g → f < 48 → passageFollows s t f g)) ∧
  ∀ (s : State) (slot offset n zone : Nat) (c : Channel), s.orderReady slot 0x05 → s.numbersSound → s.shaped →
    u16 (s.orderBody slot) 0 = offset → u16 (s.orderBody slot) 2 = 4 → 0x3600 ≤ offset → offset + 4 ≤ 0x8000 →
    (s.readByte offset).toNat = 1 → (s.readByte (offset + 1)).toNat = n → (s.readByte (offset + 2)).toNat = zone →
    zone < 16 ∨ zone = 0xFF → s.channel n = some c →
    let dest : Option Nat := if zone = 0xFF then none else some zone
    let members (u : State) (z : Nat) : List Nat := ((u.zone z).kind c.kind).members
    ∃ t, exec .zoneMap s = .next t ∧ reactionFrame s t ∧
      (c.zone = dest →
        slotDoneWith s t slot .ok false 1 (le16 1 ++ le16 0xFFFF) ∧
        t = { s with mem := t.mem, intake := s.intake.tail, attn := s.attn ||| 1 }) ∧
      (c.zone ≠ dest → zone ≠ 0xFF → 4 ≤ (members s zone).length →
        slotDoneWith s t slot .badParameter false 0 (le16 0 ++ le16 0) ∧
        t = { s with mem := t.mem, intake := s.intake.tail, attn := s.attn ||| 1 }) ∧
      (c.zone ≠ dest → zone = 0xFF ∨ (members s zone).length < 4 →
        slotDoneWith s t slot .ok false 1 (le16 1 ++ le16 0xFFFF) ∧
        t.channels = s.channels.set n (some { c with zone := dest }) ∧
        (zone ≠ 0xFF → (members t zone).Perm (n :: members s zone) ∧
          (c.usable = true → ((t.zone zone).kind c.kind).vstate = .present) ∧
          (t.zone zone).configured = true) ∧
        (∀ z, c.zone = some z → z < 16 → members t z = (members s z).erase n ∧
          (members t z = [] → ((t.zone z).kind c.kind).vstate = .none ∧ ((t.zone z).kind c.kind).value = 0)) ∧
        ∀ z, c.zone ≠ some z → dest ≠ some z → t.zone z = s.zone z)

/-- SET CHANNEL brings each present field within its range, keeps the others, and returns the six values in force; a
changed zero or gain marks the seed due; a changed stale time whose moment has passed makes a WAITING, GOOD or SUSPECT
channel STALE at once (that a moment already past acts only with a changed stale time is the model's choice, log 30);
accumulator, value, CLAMPED mark and the other channels are left. A NONE record ends NO SUCH UNIT. (That the result
begins with the presence set, at body offset 0, is deduced, log 10.) CAPTURE ZERO: RING NOT RUNNING, NO SUCH UNIT,
UNREACHABLE for a LOST channel, BUSY for one with a capture, in this order (that UNREACHABLE carries the count 1 and an
empty body is deduced, log 11); otherwise the order stays in the active set with an empty capture on the channel, and nothing
else changes. -/
def Obligations.SetChannelAndCaptureZero : Prop :=
  (∀ (s : State) (slot : Nat), s.orderReady slot 0x06 →
    ∃ t, exec .setChannel s = .next t ∧
      let b := s.orderBody slot
      let n := u8 b 0
      let p := u8 b 1
      (s.channel n = none → orderRefused s t slot .noSuchUnit) ∧
      ∀ c, s.channel n = some c →
        let z0 := if present p 0 then clampNat 0 4095 (u16 b 2) else c.zero
        let gain := if present p 1 then clampNat 1 65535 (u16 b 4) else c.gain
        let shift := if present p 2 then clampNat 0 7 (u8 b 6) else c.shift
        let under := if present p 3 then clampNat 0 4095 (u16 b 8) else c.under
        let skip := if present p 4 then decide (u8 b 7 ≠ 0) else c.skip
        let stale := if present p 5 then clampNat 1 60 (u8 b 10) else c.stale
        let clamped : Bool := decide ((present p 0 = true ∧ z0 ≠ u16 b 2) ∨ (present p 1 = true ∧ gain ≠ u16 b 4) ∨
          (present p 2 = true ∧ shift ≠ u8 b 6) ∨ (present p 3 = true ∧ under ≠ u16 b 8) ∨
          (present p 5 = true ∧ stale ≠ u8 b 10))
        let nowStale : Bool := decide (stale ≠ c.stale ∧ 1000 * stale ≤ elapsed s.clock c.lastFeed) &&
          (c.quality == .waiting || c.quality == .good || c.quality == .suspect)
        slotDoneWith s t slot (if clamped then .okClamped else .ok) false 1
          ([0x3F] ++ le16 z0 ++ le16 gain ++ [byte shift, if skip then 1 else 0] ++ le16 under ++ [byte stale]) ∧
        reactionFrame s t ∧
        (∃ armed : Bool, t.channels = s.channels.set n (some { c with
          zero := z0, gain := gain, shift := shift, under := under, skip := skip, stale := stale,
          seedDue := c.seedDue || decide (z0 ≠ c.zero) || decide (gain ≠ c.gain) || nowStale,
          quality := if nowStale then .stale else c.quality, armed := armed })) ∧
        (skip = c.skip → nowStale = false →
          t = { s with
            mem := t.mem, imageCounts := t.imageCounts, intake := s.intake.tail, attn := s.attn ||| 1,
            channels := t.channels })) ∧
  ∀ (s : State) (slot : Nat), s.orderReady slot 0x07 →
    ∃ t, exec .captureZero s = .next t ∧
      let n := u8 (s.orderBody slot) 0
      let running := s.ring.state ≠ .idle ∧ s.ring.state ≠ .enrolling
      (¬running → orderRefused s t slot .ringNotRunning) ∧
      (running → s.channel n = none → orderRefused s t slot .noSuchUnit) ∧
      ∀ c, running → s.channel n = some c →
        (c.quality = .lost → orderRefusedCounting s t slot .unreachable 1) ∧
        (c.quality ≠ .lost → c.capture.isSome = true → orderRefused s t slot .busy) ∧
        (c.quality ≠ .lost → c.capture = none →
          slotTakenBy s t slot (.capture n) ∧ memoryKeptBeside s t slot ∧
          t = { s with
            mem := t.mem, imageCounts := t.imageCounts, intake := s.intake.tail,
            active := s.active ++ [{ slot := slot, copy := s.readBytes (slotAt slot) 64, work := .capture n }],
            channels := s.channels.set n (some { c with
              capture := some { slot := slot, count := 0, sum := 0, lowest := 4095, highest := 0 } }) })

/-- SET ZONE: a zone of 16 or above ends NO SUCH UNIT; a present threshold group out of order refuses the whole;
otherwise every present group is clamped and stored, the CO, NO2 and VIS kinds and the smoke latch are judged again with
the settings now in force, the zone level and the tunnel level follow, and the settings are returned. The other zones and
every channel are left. That a refused SET ZONE returns an empty body is the model's choice (log 99). -/
def Obligations.SetZoneStoresAndRegrades : Prop :=
  ∀ (s : State) (slot : Nat), s.orderReady slot 0x08 → s.shaped →
    ∃ t, exec .setZone s = .next t ∧
      let b := s.orderBody slot
      let n := u8 b 0
      let p := u8 b 1
      let carried (i : Nat) : Thresholds :=
        { t1 := u16 b i, t2 := u16 b (i + 2), t3 := u16 b (i + 4), t4 := u16 b (i + 6), h := u16 b (i + 8) }
      let ordered (x : Thresholds) : Prop := x.t1 ≤ x.t2 ∧ x.t2 ≤ x.t3 ∧ x.t3 ≤ x.t4
      let low (hi : Nat) (x : Thresholds) : Thresholds :=
        { t1 := min x.t1 hi, t2 := min x.t2 hi, t3 := min x.t3 hi, t4 := min x.t4 hi, h := min x.h hi }
      let good : Prop := (present p 0 = true → ordered (carried 2)) ∧ (present p 1 = true → ordered (carried 12)) ∧
        (present p 2 = true → ordered (carried 22))
      let z := s.zone n
      let coT := if present p 0 then low 5000 (carried 2) else z.coT
      let no2T := if present p 1 then low 2000 (carried 12) else z.no2T
      let visT := if present p 2 then low 500 (carried 22) else z.visT
      let smoke := if present p 3 then min (u16 b 32) 500 else z.smoke
      let hold := if present p 4 then min (u16 b 34) 600 else z.hold
      let fallback := if present p 5 then min (u8 b 36) 4 else z.fallback
      let clamped : Bool := decide ((present p 0 = true ∧ coT ≠ carried 2) ∨ (present p 1 = true ∧ no2T ≠ carried 12) ∨
        (present p 2 = true ∧ visT ≠ carried 22) ∨ (present p 3 = true ∧ smoke ≠ u16 b 32) ∨
        (present p 4 = true ∧ hold ≠ u16 b 34) ∨ (present p 5 = true ∧ fallback ≠ u8 b 36))
      let bytesOf (x : Thresholds) : List Byte := le16 x.t1 ++ le16 x.t2 ++ le16 x.t3 ++ le16 x.t4 ++ le16 x.h
      let reheld (k : ZoneKind) : ZoneKind :=
        if hold ≠ z.hold ∧ k.vstate = .held ∧ k.heldSince.any (fun x => decide (1000 * hold ≤ elapsed s.clock x)) = true
        then { k with vstate := .absent, heldSince := none } else k
      (16 ≤ n → orderRefused s t slot .noSuchUnit) ∧
      (n < 16 → ¬good → orderRefused s t slot .badParameter) ∧
      (n < 16 → good →
        slotDoneWith s t slot (if clamped then .okClamped else .ok) false 1
          ([byte n, 0x3F] ++ bytesOf coT ++ bytesOf no2T ++ bytesOf visT ++ le16 smoke ++ le16 hold ++ [byte fallback]) ∧
        reactionFrame s t ∧ t.channels = s.channels ∧ t.tunnelLevel = tunnelLevelOf t.zones ∧
        (∀ m, m ≠ n → t.zone m = s.zone m) ∧
        let co := { reheld z.co with level := gradedLevel coT fallback (reheld z.co) }
        let no2 := { reheld z.no2 with level := gradedLevel no2T fallback (reheld z.no2) }
        let vis := { reheld z.vis with level := gradedLevel visT fallback (reheld z.vis) }
        t.zone n = { z with
          co := co, no2 := no2, vis := vis, airv := reheld z.airv, coT := coT, no2T := no2T, visT := visT,
          smoke := smoke, hold := hold, fallback := fallback, level := max co.level (max no2.level vis.level),
          latch :=
            if (reheld z.vis).vstate = .none then false
            else if (reheld z.vis).vstate = .absent then z.latch
            else if (smoke : Int) ≤ z.vis.value then true
            else if z.vis.value < (smoke : Int) - visT.h then false
            else z.latch })

/-- SCAN ZONES: a region given that fails its test ends BAD BUFFER; an unknown kind or relation, a start of 16 or above
or another stride than 1 or 2 ends BAD PARAMETER; otherwise the matching zones among start, start + stride and so on are
written with their values, into the body up to 12 or into the region as many as fit, and the result holds the visited,
the matching and the written. It changes nothing else. (That the region is tested first is the model's choice, log 35.) -/
def Obligations.ScanZonesListsMatches : Prop :=
  ∀ (s : State) (slot : Nat), s.orderReady slot 0x09 →
    ∃ t, exec .scanZones s = .next t ∧
      let b := s.orderBody slot
      let key := s16 b 2
      let start := u8 b 4
      let stride := u8 b 5
      let offset := u16 b 6
      let length := u16 b 8
      let bad := offset ≠ 0 ∧ (offset < 0x3600 ∨ 0x8000 < offset + length)
      let odd := 3 < u8 b 0 ∨ 2 < u8 b 1 ∨ 16 ≤ start ∨ stride = 0 ∨ 2 < stride
      (bad → orderRefused s t slot .badBuffer) ∧
      (¬bad → odd → orderRefused s t slot .badParameter) ∧
      ∀ kind : ChKind, u8 b 0 = kind.code → ¬bad → ¬odd →
        let visited := (List.range 16).filter fun z => decide (start ≤ z ∧ (z - start) % stride = 0)
        let isMatch (z : Nat) : Bool :=
          let k := (s.zone z).kind kind
          (s.zone z).configured && (k.vstate == .present || k.vstate == .held) &&
            (if u8 b 1 = 0 then k.value == key
              else if u8 b 1 = 1 then decide (key ≤ k.value) else decide (k.value ≤ key))
        let found := visited.filter isMatch
        let fit := if offset = 0 then 12 else length / 3
        let pairs := (found.take fit).flatMap fun z => byte z :: sle16 ((s.zone z).kind kind).value
        let written := (found.take fit).length
        slotDoneWith s t slot (if written < found.length then .okClamped else .ok) false written
          ([byte visited.length, byte found.length, byte written, 0] ++ (if offset = 0 then pairs else [])) ∧
        t = { s with mem := t.mem, intake := s.intake.tail, attn := s.attn ||| 1 } ∧
        (offset ≠ 0 → t.readBytes offset (3 * written) = pairs) ∧
        ∀ a, ¬slotPlace slot a → ¬(offset ≠ 0 ∧ offset ≤ a ∧ a < offset + 3 * written) → t.readByte a = s.readByte a

/-! ## Fan orders (chapters 6 and 7) -/

/-- FAN RUN: RING NOT RUNNING, NO SUCH UNIT, then BAD PARAMETER for an unknown direction or a step of 0 or above 8
(that NO SUCH UNIT comes first is deduced, log 23). A unit whose members are all LOCKED OUT ends LOCKED OUT with
nothing changed. Otherwise every member not LOCKED OUT becomes MANUAL with the door request mark clear and asks for
that direction and for the step, at most its top step; other fans' requested values and sources are left. For one fan
RUNNING with its commanded values at the new target the order ends at once, OK or OK CLAMPED, whatever part of another
order it carries. Where every member can be given a part (`State.partFits`), that of a LOCKED OUT or UNREACHABLE fan
ends so and that of a fan in FAULT with its cause, the fan's own part going on; of a fan RUNNING at the target OK or
OK CLAMPED, of a STOPPED fan with effective cap 0 OK CLAMPED; of a QUEUED fan without a slot whose request the cap 0
turns into no start OK CLAMPED too, the fan STOPPED. Every other becomes the fan's active part, the part it replaces
has ended SUPERSEDED (`partsSuperseded`), and the order is TAKEN while a part is open (`fanOrderTaken`) (R112, R114,
R116, R120). A changed request makes the fan act on its new target (R99, R103, R105 to R107, `Fan.afterTarget`), an
unchanged one causes nothing: STOPPED and ready it is QUEUED and asks in its class; QUEUED without a slot at step 0 it
is withdrawn and STOPPED; a start at step 0 or turned has commanded step 0, FAN STEP offered, its slot given back, and
is RUNNING DOWN with the limit started, marked if turned; RUNNING away from the target it is RAMPING with the interval
started; RAMPING and RUNNING DOWN it is marked when a turn is owed. That CLAMPED stands in the slot of one fan's order
too, its part marked clamped and ended otherwise, is deduced (log 111); that the FAN STEP at step 0 is offered before
the grants' start frames is the model's choice (log 88). -/
def Obligations.FanRunWritesRequests : Prop :=
  (∀ (s : State) (slot : Nat), s.orderReady slot 0x0A →
    ∃ t, exec .fanRun s = .next t ∧
      let b := s.orderBody slot
      let running := s.ring.state ≠ .idle ∧ s.ring.state ≠ .enrolling
      let odd := 1 < u8 b 2 ∨ u8 b 3 = 0 ∨ 8 < u8 b 3
      (¬running → orderRefused s t slot .ringNotRunning) ∧
      (running → s.unitMembers (fanUnit b) = none → orderRefused s t slot .noSuchUnit) ∧
      (∀ ms, running → s.unitMembers (fanUnit b) = some ms →
        (odd → orderRefused s t slot .badParameter) ∧
        (¬odd → (∀ f ∈ ms, ∃ r, s.fan f = some r ∧ r.state = .lockedOut) →
          slotDoneWith s t slot .lockedOut false ms.length
            ([byte ms.length, 0] ++ ms.flatMap fun f => [byte f, 0x44]) ∧
          t = { s with mem := t.mem, intake := s.intake.tail, attn := s.attn ||| 1 } ∧
          ∀ a, ¬slotPlace slot a → t.readByte a = s.readByte a) ∧
        (¬odd →
          reactionFrame s t ∧ t.intake = s.intake.tail ∧ t.channels = s.channels ∧ t.zones = s.zones ∧
          t.doors = s.doors ∧ t.plan = s.plan ∧
          ∀ f r, s.fan f = some r → ∃ r', t.fan f = some r' ∧ r'.zone = r.zone ∧ r'.group = r.group ∧
            r'.profile = r.profile ∧ r'.cap = r.cap ∧
            (f ∈ ms → r.state ≠ .lockedOut →
              r'.source = .manual ∧ r'.doorReq = false ∧
              r'.requested = { step := min (u8 b 3) r.top, dir := if u8 b 2 = 0 then .plus else .minus }) ∧
            (f ∉ ms ∨ r.state = .lockedOut →
              r'.source = r.source ∧ r'.doorReq = r.doorReq ∧ r'.requested = r.requested)) ∧
        ∀ f r, ¬odd → ms = [f] → s.fan f = some r → r.state = .running → s.numbersSound →
          (∀ p, r.part = some p → p.slot ≠ slot) →
          let dir : Dir := if u8 b 2 = 0 then .plus else .minus
          let target : Speed :=
            { step := min (min (u8 b 3) r.top) r.cap, dir := if r.reversible then dir else r.commanded.dir }
          let out : OrderOutcome := if target.step < u8 b 3 ∨ target.dir ≠ dir then .okClamped else .ok
          r.commanded = target →
            slotDoneWith s t slot out (decide (r.top < u8 b 3)) 1 [1, 0, byte f, byte out.code]) ∧
      (∀ f r, running → ¬odd → s.unitMembers (fanUnit b) = some [f] → s.fan f = some r →
        s.reachable r.station = true →
        let dir : Dir := if u8 b 2 = 0 then .plus else .minus
        let asked : Speed := { step := min (u8 b 3) r.top, dir := dir }
        let target : Speed := { step := min asked.step r.cap, dir := if r.reversible then dir else r.commanded.dir }
        ∃ r', t.fan f = some r' ∧
          r'.state = if r.state = .lockedOut ∨ r.requested = asked then r.state else r.afterTarget target) ∧
      ∀ ms, running → ¬odd → s.unitMembers (fanUnit b) = some ms → s.numbersSound →
        (∀ f ∈ ms, ∀ r, s.fan f = some r → s.partFits slot r) →
        let v : Speed := { step := u8 b 3, dir := if u8 b 2 = 0 then .plus else .minus }
        let atTaking (r : Fan) : Option OrderOutcome :=
          let target : Speed :=
            { step := min (min v.step r.top) r.cap, dir := if r.reversible then v.dir else r.commanded.dir }
          if r.state = .lockedOut then some .lockedOut
          else if r.state = .unreachable then some .unreachable
          else if r.state = .fault then some r.cause.outcome
          else if r.state = .running ∧ r.commanded = target then
            some (if target.step < v.step ∨ target.dir ≠ v.dir then .okClamped else .ok)
          else if r.state = .stopped ∧ r.cap = 0 then some .okClamped
          else none
        let withdrawn (r : Fan) : Bool :=
          decide (r.state = .queued ∧ r.slotHeld = false ∧ r.cap = 0 ∧ r.requested ≠ { v with step := min v.step r.top })
        let out (f : Nat) : Option OrderOutcome :=
          (s.fan f).bind fun r => if withdrawn r then some .okClamped else atTaking r
        fanOrderTaken s t slot ms out
          (ms.any fun f => (s.fan f).any fun r => decide (r.top < v.step ∧ r.state ≠ .lockedOut)) ∧
        partsSuperseded s t ms (fun r => (atTaking r).isNone) ∧
        ∀ f ∈ ms, ∀ r, s.fan f = some r → ∃ r', t.fan f = some r' ∧
          (out f = none → r'.part = some { slot := slot, work := .run v }) ∧
          (withdrawn r = true → r'.part = none) ∧
          (r.state = .lockedOut ∨ r.state = .unreachable → r'.part = r.part) ∧
          (r.state = .fault → r'.part.map (·.slot) = r.part.map (·.slot))) ∧
  (∀ (s : State) (f : Nat) (v : Speed) (r : Fan), s.fan f = some r →
    let asked : Speed := { v with step := min v.step r.top }
    (r.requested = asked → s.writeRequest f v = s) ∧
    (r.requested ≠ asked → s.writeRequest f v =
      State.settleFan f
        (State.actOnTarget f { s with fans := s.fans.set f (some { r with requested := asked }) }))) ∧
  ∀ (s : State) (f : Nat) (r : Fan), s.fan f = some r →
    let t := s.actOnTarget f
    let target : Speed :=
      { step := min r.requested.step r.cap, dir := if r.reversible then r.requested.dir else r.commanded.dir }
    let next := r.afterTarget target
    let turned : Bool := target.dir != r.commanded.dir
    let rest : Speed := { r.commanded with step := 0 }
    let starting := (r.state = .queued ∧ r.slotHeld = true) ∨ r.state = .energizing
    let put (x : Fan) : State := { s with fans := s.fans.set f (some x) }
    let k := s.feeder r.feeder
    (r.state ≠ .ramping → r.state ≠ .runningDown → next = r.state → t = s) ∧
    (r.state = .stopped → next = .queued →
      let asks : Feeder :=
        if r.kind = .passage ∧ r.source = .auto ∧ r.doorReq = true then { k with class1 := k.class1 ++ [f] }
        else { k with class0 := k.class0 ++ [f] }
      t = if f ∈ k.energizing ++ k.waiting then put { r with state := .queued }
        else State.grants r.feeder { put { r with state := .queued } with feeders := s.feeders.set r.feeder asks }) ∧
    (r.state = .queued → next = .stopped →
      reactionFrame s t ∧ t.fans = s.fans.set f (some { r with state := .stopped }) ∧
      t.feeders = s.feeders.set r.feeder { k with class1 := k.class1.erase f, class0 := k.class0.erase f } ∧
      fanRecorded s t f .queued .stopped .none) ∧
    (starting → next = .runningDown → s.reachable r.station = true → (r.slotHeld = true → f ∉ k.waiting) →
      reactionFrame s t ∧ t.feeders = (s.giveBack f).feeders ∧
      ∃ r', t.fan f = some r' ∧ r'.state = .runningDown ∧ r'.commanded = rest ∧ r'.slotHeld = false ∧
        r'.reversal = (r.reversal || turned) ∧
        r'.timer = some { start := s.clock, dur := 1000 * r.profile.rundown } ∧ r'.requested = r.requested ∧
        r'.source = r.source ∧ r'.cap = r.cap ∧ r'.part = r.part ∧
        let frame : QFrame :=
          { kind := .fanStep, payload := [byte r.index, byte rest.dir.code, 0], origin := .fanStep f false, held := 0 }
        let queue := (s.entry r.station).queue
        (s.shaped → r.stepFrame = .none → r.lastSent ≠ some rest → (∀ q ∈ queue, ∀ st, q.origin ≠ .fanStep f st) →
          (queue.length < 8 →
            r'.lastSent = some rest ∧ r'.stepFrame = .queued ∧ frame ∈ (t.entry r.station).queue) ∧
          (8 ≤ queue.length → r'.lastSent = r.lastSent ∧ r'.stepFrame = .none))) ∧
    (r.state = .ramping → t = put { r with reversal := turned }) ∧
    (r.state = .running → next = .ramping →
      t = put { r with
        state := .ramping, timer := some { start := s.clock, dur := 500 * r.profile.interval }, reversal := turned }) ∧
    (r.state = .runningDown → t = put { r with reversal := r.reversal || turned })

/-- FAN STOP, FAN HOME and FAN LOCKOUT: RING NOT RUNNING, then NO SUCH UNIT; a unit whose members are all LOCKED OUT ends
LOCKED OUT; otherwise every member that is not LOCKED OUT becomes MANUAL and asks for step 0 in the direction it asked
for; other fans' requested values and sources are left. A FAN STOP of one STOPPED fan ends OK at once, whatever part of
another order the fan carries. Where every member can be given a part (`State.partFits`), that of a LOCKED OUT or
UNREACHABLE fan ends so, the fan's own part going on; a FAN STOP of a fan in FAULT ends with its fault cause, of a STOPPED
fan OK, and of a fan QUEUED without a slot, which is withdrawn and STOPPED, OK. Every other part has become the fan's active
part, the part it replaces has ended SUPERSEDED (`partsSuperseded`), and the order is TAKEN while a part is open and
completed otherwise (`fanOrderTaken`). FAN HOME waits for rest; of a fan that is STOPPED, or in FAULT with standstill shown,
it has offered FAN RESET, which the station's queue holds unless it was full. FAN HOME and FAN LOCKOUT of a fan in FAULT
have its run-down limit started, but not FAN HOME where the standstill is shown already (R112, R115 to R118, R120). The
fan's state then is the one that its target step 0 makes of it (R105 to R107, `Fan.afterTarget`; the moves themselves are
those of `FanRunWritesRequests`). -/
def Obligations.FanStopHomeLockoutAskForRest : Prop :=
  ∀ (s : State) (slot : Nat) (c : Instr) (code : Nat),
    (c, code) ∈ [(Instr.fanStop, 0x0B), (Instr.fanHome, 0x0C), (Instr.fanLockout, 0x0D)] →
    s.orderReady slot code →
    ∃ t, exec c s = .next t ∧
      let b := s.orderBody slot
      let running := s.ring.state ≠ .idle ∧ s.ring.state ≠ .enrolling
      (¬running → orderRefused s t slot .ringNotRunning) ∧
      (running → s.unitMembers (fanUnit b) = none → orderRefused s t slot .noSuchUnit) ∧
      (∀ ms, running → s.unitMembers (fanUnit b) = some ms →
        ((∀ f ∈ ms, ∃ r, s.fan f = some r ∧ r.state = .lockedOut) →
          slotDoneWith s t slot .lockedOut false ms.length
            ([byte ms.length, 0] ++ ms.flatMap fun f => [byte f, 0x44]) ∧
          t = { s with mem := t.mem, intake := s.intake.tail, attn := s.attn ||| 1 } ∧
          ∀ a, ¬slotPlace slot a → t.readByte a = s.readByte a) ∧
        (reactionFrame s t ∧ t.intake = s.intake.tail ∧ t.channels = s.channels ∧ t.zones = s.zones ∧
          t.doors = s.doors ∧ t.plan = s.plan) ∧
        (∀ f r, s.fan f = some r → ∃ r', t.fan f = some r' ∧ r'.zone = r.zone ∧ r'.group = r.group ∧
          r'.profile = r.profile ∧ r'.cap = r.cap ∧
          (f ∈ ms → r.state ≠ .lockedOut →
            r'.source = .manual ∧ r'.doorReq = false ∧ r'.requested = { r.requested with step := 0 }) ∧
          (f ∉ ms ∨ r.state = .lockedOut →
            r'.source = r.source ∧ r'.doorReq = r.doorReq ∧ r'.requested = r.requested)) ∧
        ∀ f r, c = .fanStop → ms = [f] → s.fan f = some r → r.state = .stopped → s.numbersSound →
          (∀ p, r.part = some p → p.slot ≠ slot) →
          slotDoneWith s t slot .ok false 1 [1, 0, byte f, 0]) ∧
      (∀ f r, running → s.unitMembers (fanUnit b) = some [f] → s.fan f = some r → s.reachable r.station = true →
        let target : Speed := { step := 0, dir := if r.reversible then r.requested.dir else r.commanded.dir }
        ∃ r', t.fan f = some r' ∧
          r'.state = if r.state = .lockedOut ∨ r.requested.step = 0 then r.state else r.afterTarget target) ∧
      ∀ ms, running → s.unitMembers (fanUnit b) = some ms → s.numbersSound →
        (∀ f ∈ ms, ∀ r, s.fan f = some r → s.partFits slot r) →
        let atTaking (r : Fan) : Option OrderOutcome :=
          if r.state = .lockedOut then some .lockedOut
          else if r.state = .unreachable then some .unreachable
          else if c ≠ .fanStop then none
          else if r.state = .fault then some r.cause.outcome
          else if r.state = .stopped then some .ok
          else none
        let withdrawn (f : Nat) : Bool :=
          (s.fan f).any (fun r => r.state == .queued) && (t.fan f).any fun r => r.state == .stopped
        let out (f : Nat) : Option OrderOutcome :=
          if c = .fanStop ∧ withdrawn f = true then some .ok else (s.fan f).bind atTaking
        fanOrderTaken s t slot ms out false ∧ partsSuperseded s t ms (fun r => (atTaking r).isNone) ∧
        ∀ f ∈ ms, ∀ r, s.fan f = some r → ∃ r', t.fan f = some r' ∧
          (withdrawn f = true → r.slotHeld = false) ∧
          (ms = [f] → r.state = .queued → r.slotHeld = false → 0 < r.requested.step → withdrawn f = true) ∧
          (r.state = .lockedOut ∨ r.state = .unreachable → r'.part = r.part) ∧
          (c = .fanStop → r.state = .fault → r'.part.map (·.slot) = r.part.map (·.slot)) ∧
          (c = .fanStop → withdrawn f = true → r'.part = none) ∧
          (c = .fanStop → out f = none → r'.part = some { slot := slot, work := .stop }) ∧
          (c = .fanLockout → out f = none → r'.part = some { slot := slot, work := .lockout }) ∧
          (c = .fanHome → s.shaped → out f = none →
            let atRest := r'.state = .stopped ∨ (r'.state = .fault ∧ r.heard = true ∧ r.standstill = true)
            let queue := (t.entry r.station).queue
            (¬atRest → r'.part = some { slot := slot, work := .home .waiting }) ∧
            (atRest →
              (r'.part = some { slot := slot, work := .home .resetting } ∧
                { kind := .fanReset, payload := [byte r.index], origin := .fanReset f, held := 0 } ∈ queue) ∨
              (r'.part = some { slot := slot, work := .home .offering } ∧ 8 ≤ queue.length))) ∧
          (c ≠ .fanStop → r.state = .stopped ∨ r.state = .fault → r'.state = r.state) ∧
          (c ≠ .fanStop → r.state = .fault →
            r'.timer =
              if c = .fanHome ∧ r.heard = true ∧ r.standstill = true then none
              else some { start := s.clock, dur := 1000 * r.profile.rundown })

/-- FAN RELEASE: a unit that names no numbered fan ends NO SUCH UNIT; every member that is not LOCKED OUT becomes AUTO
and has no active part, a jet fan with the door request mark clear; a LOCKED OUT member and every other fan keep their
source, and zones, groups, profiles and channels are left. The part of a LOCKED OUT member ends LOCKED OUT and every
other OK, so the order is completed with these pairs (R115, R120); a part that a member carried has ended SUPERSEDED,
with its order when it was the last open one (R112, R115; said where only MANUAL fans carry a part). A PASSAGE fan
that a door names is brought to the doors' present request, whether or not it is the one last written (R115, R139);
one that no door names keeps what it asks for. A JET fan has the planner evaluate (R150): nothing in OFF; in NORMAL
the plan timer restarts, and for one fan named, without SMOKE HOLD, a selection of the stage's count is made; in FIRE
a selection of the fire count, without a control step, one in an excluded zone being asked for step 0 (R159). FAN
UNLOCK: every LOCKED OUT member leaves that state MANUAL with requested step 0: FAULT with its kept cause, FAULT with
DRIVE FAULT when its last fault code is other than none, and otherwise STOPPED, as FAN STATE records; every other fan
is left; every part ends OK. -/
def Obligations.FanReleaseAndUnlock : Prop :=
  (∀ (s : State) (slot : Nat), s.orderReady slot 0x0E →
    ∃ t, exec .fanRelease s = .next t ∧
      let b := s.orderBody slot
      (s.unitMembers (fanUnit b) = none → orderRefused s t slot .noSuchUnit) ∧
      (∀ ms, s.unitMembers (fanUnit b) = some ms →
        reactionFrame s t ∧ t.intake = s.intake.tail ∧ t.channels = s.channels ∧ t.zones = s.zones ∧
        t.plan.regime = s.plan.regime ∧
        ((∀ f ∈ ms, ∃ r, s.fan f = some r ∧ r.state = .lockedOut) →
          slotDoneWith s t slot .lockedOut false ms.length
            ([byte ms.length, 0] ++ ms.flatMap fun f => [byte f, 0x44])) ∧
        (s.numbersSound → (∀ f ∈ ms, ∀ r p, s.fan f = some r → r.part = some p → p.slot ≠ slot) →
          fanOrderTaken s t slot ms
            (fun f => (s.fan f).map fun r => if r.state = .lockedOut then .lockedOut else .ok) false ∧
          ((∀ f r, s.fan f = some r → r.part.isSome = true → r.source = .manual) →
            partsSuperseded s t ms fun r => r.state != .lockedOut)) ∧
        (∀ f r, s.fan f = some r → ∃ r', t.fan f = some r' ∧ r'.zone = r.zone ∧ r'.group = r.group ∧
          r'.profile = r.profile ∧
          (f ∈ ms → r.state ≠ .lockedOut →
            r'.source = .auto ∧ r'.part = none ∧ (r.kind = .jet → r'.doorReq = false) ∧
            (r.kind = .passage → (∀ d x, s.door d = some x → x.passage ≠ some f) →
              r'.doorReq = false ∧ r'.requested = r.requested) ∧
            ∀ d x, r.kind = .passage → s.door d = some x → x.passage = some f →
              let v := requestOfDoors s.doors f r.top
              r'.requested = { v with step := min v.step r.top } ∧ r'.doorReq = true ∧
              (f < s.passageWritten.length → t.passageWritten.getD f none = some v)) ∧
          (f ∉ ms ∨ r.state = .lockedOut → r'.source = r.source)) ∧
        t.doors = s.doors ∧
        (s.plan.regime = .off ∨ (∀ f ∈ ms, ∀ r, s.fan f = some r → r.kind = .jet → r.state = .lockedOut) →
          t.plan = s.plan) ∧
        (∀ f r, s.plan.regime = .off → s.fan f = some r → r.kind = .jet →
          ∃ r', t.fan f = some r' ∧ r'.requested = r.requested) ∧
        (∀ f r, s.plan.regime = .normal → f ∈ ms → s.fan f = some r → r.kind = .jet → r.state ≠ .lockedOut →
          t.plan.planTimer = some { start := s.clock, dur := 1000 * s.plan.planInterval }) ∧
        ∀ f r, ms = [f] → s.fan f = some r → r.kind = .jet → r.state ≠ .lockedOut →
          let given : State := { s with fans := s.fans.set f (some { r with source := .auto, doorReq := false }) }
          let out : Bool := r.zone.any fun z => s.plan.excluded.contains z
          (s.plan.regime = .normal → s.plan.smokeHold = false →
            selectionMade given t (s.plan.stages.getD s.plan.tunnel 0)) ∧
          (s.plan.regime = .normal → s.plan.smokeHold = true → t.plan.picked = s.plan.picked ∧
            ∃ r', t.fan f = some r' ∧ r'.requested = r.requested) ∧
          (s.plan.regime = .fire → t.plan.picked.length = t.plan.fireCount ∧
            t.plan.fireCount = min s.plan.fireCount t.plan.candidates) ∧
          (s.plan.regime = .fire → out = false → selectionMade given t s.plan.fireCount) ∧
          (s.plan.regime = .fire → out = true →
            ∃ r', t.fan f = some r' ∧ r'.requested = { r.requested with step := 0 } ∧ r'.plannerStart = none))) ∧
  ∀ (s : State) (slot : Nat), s.orderReady slot 0x0F →
    ∃ t, exec .fanUnlock s = .next t ∧
      let b := s.orderBody slot
      (s.unitMembers (fanUnit b) = none → orderRefused s t slot .noSuchUnit) ∧
      ∀ ms, s.unitMembers (fanUnit b) = some ms →
        slotDoneWith s t slot .ok false ms.length ([byte ms.length, 0] ++ ms.flatMap fun f => [byte f, 0]) ∧
        reactionFrame s t ∧
        t = { s with
          mem := t.mem, imageCounts := t.imageCounts, intake := s.intake.tail, attn := t.attn, jWrite := t.jWrite,
          jGap := t.jGap, jSeq := t.jSeq, fans := t.fans } ∧
        (∀ f, t.fan f = (s.fan f).map fun r =>
          if f ∈ ms ∧ r.state = .lockedOut then
            { r with
              source := .manual, requested := { r.requested with step := 0 },
              state := if r.cause ≠ .none ∨ r.faultCode ≠ 0 then .fault else .stopped,
              cause := if r.cause = .none ∧ r.faultCode ≠ 0 then .driveFault else r.cause }
          else r) ∧
        ∀ f r, f ∈ ms → s.fan f = some r → r.state = .lockedOut → ∃ r', t.fan f = some r' ∧
          fanRecorded s t f .lockedOut r'.state r'.cause

/-- FAN PROFILE stores the fields present, each brought within its range, in every member that is not LOCKED OUT.
Naming one fan it ends with that part's outcome and the four values in force (behind their presence set, at body
offset 0: deduced, log 10; for a LOCKED OUT fan those it keeps: log 44); a group order lists its members' outcomes,
with CLAMPED when any part was clamped (log 44). Nothing else changes. -/
def Obligations.FanProfileStoresLimits : Prop :=
  ∀ (s : State) (slot : Nat), s.orderReady slot 0x10 →
    ∃ t, exec .fanProfile s = .next t ∧
      let b := s.orderBody slot
      let p := u8 b 2
      let stored (r : Fan) : Profile :=
        { interval := if present p 0 then clampNat 1 16 (u8 b 3) else r.profile.interval,
          energize := if present p 1 then clampNat 2 30 (u8 b 4) else r.profile.energize,
          dwell := if present p 2 then clampNat 0 60 (u8 b 5) else r.profile.dwell,
          rundown := if present p 3 then clampNat 10 600 (u16 b 6) else r.profile.rundown }
      let clamped : Prop := (present p 0 = true ∧ clampNat 1 16 (u8 b 3) ≠ u8 b 3) ∨
        (present p 1 = true ∧ clampNat 2 30 (u8 b 4) ≠ u8 b 4) ∨
        (present p 2 = true ∧ clampNat 0 60 (u8 b 5) ≠ u8 b 5) ∨
        (present p 3 = true ∧ clampNat 10 600 (u16 b 6) ≠ u16 b 6)
      let outcome (f : Nat) : OrderOutcome :=
        if (s.fan f).any (fun r => r.state == .lockedOut) then .lockedOut else if clamped then .okClamped else .ok
      let inForce (r : Fan) : Profile := if r.state = .lockedOut then r.profile else stored r
      (s.unitMembers (fanUnit b) = none → orderRefused s t slot .noSuchUnit) ∧
      ∀ ms, s.unitMembers (fanUnit b) = some ms →
        memoryKeptBeside s t slot ∧
        t = { s with
          mem := t.mem, imageCounts := t.imageCounts, intake := s.intake.tail, attn := s.attn ||| 1, fans := t.fans } ∧
        (∀ f, t.fan f = (s.fan f).map fun r => if f ∈ ms then { r with profile := inForce r } else r) ∧
        (∀ f r, (fanUnit b).group = false → ms = [f] → s.fan f = some r →
          slotDoneWith s t slot (outcome f) false 1
            ([0x0F, byte (inForce r).interval, byte (inForce r).energize, byte (inForce r).dwell] ++
              le16 (inForce r).rundown)) ∧
        ((fanUnit b).group = true →
          slotDoneWith s t slot (((ms.map outcome).find? fun o => o != .ok).getD .ok)
            (ms.any fun f => outcome f == .okClamped) ms.length
            ([byte ms.length, 0] ++ ms.flatMap fun f => [byte f, byte (outcome f).code]))

/-- FAN GROUP checks its region and then its list, by the first test of R121 that fails; a list that passes forms a group
under its lowest fan number, which is returned. FAN UNGROUP of a number that is no group identifier ends NO SUCH UNIT;
otherwise every member's group becomes none. Neither changes anything else. That the refusals LOCKED OUT and IN OTHER
GROUP carry the count 1 and an empty body is deduced (log 11). -/
def Obligations.FanGroupAndUngroup : Prop :=
  ∀ (s : State) (slot : Nat),
    (s.orderReady slot 0x11 →
      ∃ t, exec .fanGroup s = .next t ∧
        let offset := u16 (s.orderBody slot) 0
        let length := u16 (s.orderBody slot) 2
        let fs := (s.readBytes offset length).map (·.toNat)
        let inRegion := 0x3600 ≤ offset ∧ offset + length ≤ 0x8000
        let listOk := 2 ≤ fs.length ∧ fs.length ≤ 16 ∧ fs.Nodup
        let numbered := ∀ f ∈ fs, (s.fan f).isSome = true
        let locked := ∃ f r, f ∈ fs ∧ s.fan f = some r ∧ r.state = .lockedOut
        let grouped := ∃ f r, f ∈ fs ∧ s.fan f = some r ∧ r.group ≠ none
        (¬inRegion → orderRefused s t slot .badBuffer) ∧
        (inRegion → ¬listOk → orderRefused s t slot .badParameter) ∧
        (inRegion → listOk → ¬numbered → orderRefused s t slot .noSuchUnit) ∧
        (inRegion → listOk → numbered → locked → orderRefusedCounting s t slot .lockedOut 1) ∧
        (inRegion → listOk → numbered → ¬locked → grouped → orderRefusedCounting s t slot .inOtherGroup 1) ∧
        (inRegion → listOk → numbered → ¬locked → ¬grouped → 16 ≤ s.groups.length →
          orderRefused s t slot .badParameter) ∧
        (inRegion → listOk → numbered → ¬locked → ¬grouped → s.groups.length < 16 →
          ∃ least, least ∈ fs ∧ (∀ f ∈ fs, least ≤ f) ∧
            slotDoneWith s t slot .ok false 1 [byte least] ∧ memoryKeptBeside s t slot ∧
            t = { s with
              mem := t.mem, imageCounts := t.imageCounts, intake := s.intake.tail, attn := s.attn ||| 1,
              fans := t.fans } ∧
            ∀ f, t.fan f = (s.fan f).map fun r => if f ∈ fs then { r with group := some least } else r)) ∧
    (s.orderReady slot 0x12 →
      ∃ t, exec .fanUngroup s = .next t ∧
        let ident := u8 (s.orderBody slot) 0
        let isGroup := ∃ f r, s.fan f = some r ∧ r.group = some ident
        (¬isGroup → orderRefused s t slot .noSuchUnit) ∧
        (isGroup →
          slotDoneWith s t slot .ok false 0 [] ∧ memoryKeptBeside s t slot ∧
          t = { s with
            mem := t.mem, imageCounts := t.imageCounts, intake := s.intake.tail, attn := s.attn ||| 1,
            fans := t.fans } ∧
          ∀ f, t.fan f = (s.fan f).map fun r => if r.group = some ident then { r with group := none } else r))

/-- SET FEEDER: a feeder of 4 or above ends NO SUCH UNIT; the allowance is clamped to 1 to 4. Below the energizing count
it is stored as the pending allowance and no grant is made; otherwise it is the allowance at once, a pending one is
cleared, and grants are made until the energizing count has reached it or nobody waits. The result shows the record after
the order. The waiting lists of the other feeders are left. -/
def Obligations.SetFeederAppliesOrDefers : Prop :=
  ∀ (s : State) (slot : Nat), s.orderReady slot 0x13 → s.shaped →
    ∃ t, exec .setFeeder s = .next t ∧
      let n := u8 (s.orderBody slot) 0
      let carried := u8 (s.orderBody slot) 1
      let v := clampNat 1 4 carried
      let k := s.feeder n
      let k' := t.feeder n
      (4 ≤ n → orderRefused s t slot .noSuchUnit) ∧
      (n < 4 →
        slotDoneWith s t slot (if v ≠ carried then .okClamped else .ok) false 1
          [byte k'.allowance, byte (k'.pendingLow.getD 0), byte k'.energizing.length,
            byte (k'.class1.length + k'.class0.length)] ∧
        reactionFrame s t ∧
        (v < k.energizing.length →
          memoryKeptBeside s t slot ∧
          t = { s with
            mem := t.mem, imageCounts := t.imageCounts, intake := s.intake.tail, attn := s.attn ||| 1,
            feeders := s.feeders.set n { k with pendingLow := some v } }) ∧
        (k.energizing.length ≤ v →
          k'.allowance = v ∧ k'.pendingLow = none ∧ k'.energizing.length ≤ v ∧
          (k'.energizing.length = v ∨ (k'.class1 = [] ∧ k'.class0 = [])) ∧
          (let given := State.grants n { s with feeders := s.feeders.set n { k with allowance := v, pendingLow := none } }
          t.feeders = given.feeders ∧ t.fans = given.fans) ∧
          ∀ m, m ≠ n → (t.feeder m).class1 = (s.feeder m).class1 ∧ (t.feeder m).class0 = (s.feeder m).class0))

/-- The grants of one moment on a feeder (R125): none while an allowance is pending, the energizing count has reached the
allowance, or nobody waits; otherwise the head of class 1, or with class 1 empty the head of class 0, leaves its list,
joins the energizing set and takes the grant, and the conditions are judged again. A fan that is QUEUED without a slot and
has a target above 0 keeps the slot (R104, R126): commanded to step 1 in its target direction, its energize limit started,
its start frame offered, held at no opening yet when it takes the place of an unsent FAN STEP (held 0: deduced, log 46);
one that is not gives it back at once. When its station cannot be reached the start frame makes it
UNREACHABLE instead (R101, R111). A fan that gives its slot back leaves the energizing set (R127), a pending allowance that
the count has come down to takes effect (R132), and then the grants are made. -/
def Obligations.GrantsTakeWaitingFans : Prop :=
  (∀ (s : State) (k : Nat),
    let a := s.feeder k
    let may := a.pendingLow = none ∧ a.energizing.length < a.allowance
    (¬may ∨ a.waiting = [] → s.grants k = s.handled .feeders) ∧
    ∀ f rest, may → a.waiting = f :: rest →
      let moved : State := { s with
        feeders := s.feeders.set k { a with
          class1 := a.class1.erase f, class0 := a.class0.erase f, energizing := a.energizing ++ [f] } }
      s.grants k = (moved.takeGrant f).grants k) ∧
  (∀ (s : State) (f : Nat) (r : Fan), s.fan f = some r →
    let t := s.takeGrant f
    let v : Speed := { step := 1, dir := if r.reversible then r.requested.dir else r.commanded.dir }
    let started : Fan := { r with
      slotHeld := true, commanded := v, timer := some { start := s.clock, dur := 1000 * r.profile.energize } }
    let keeps := r.state = .queued ∧ r.slotHeld = false ∧ 0 < min r.requested.step r.cap
    let offers := r.lastSent ≠ some v ∧ r.stepFrame ≠ .outstanding
    let frame : QFrame :=
      { kind := .fanStep, payload := [byte r.index, byte v.dir.code, 1], origin := .fanStep f true, held := 0 }
    let before := (s.entry r.station).queue
    let unsent := ∃ q ∈ before, ∃ start, q.origin = .fanStep f start
    (¬keeps → t = { s with feeders := s.feeders.set r.feeder (slotReturned (s.feeder r.feeder) f) }) ∧
    (keeps → ¬offers → t = { s with fans := s.fans.set f (some started) }) ∧
    (keeps → offers → s.reachable r.station = true →
      ∃ last stage, t = { s with
          fans := s.fans.set f (some { started with lastSent := last, stepFrame := stage }),
          ring := { s.ring with entries := t.ring.entries }, events := t.events } ∧
        (s.shaped → unsent ∨ (r.stepFrame = .none ∧ before.length < 8) →
          last = some v ∧ stage = .queued ∧ frame ∈ (t.entry r.station).queue) ∧
        (¬unsent → r.stepFrame = .queued → last = r.lastSent ∧ stage = .outstanding ∧ t.ring = s.ring) ∧
        (¬unsent → r.stepFrame = .none → 8 ≤ before.length → last = r.lastSent ∧ stage = .none ∧ t.ring = s.ring)) ∧
    (keeps → offers → s.reachable r.station = false →
      reactionFrame s t ∧ t.feeders = s.feeders.set r.feeder (slotReturned (s.feeder r.feeder) f) ∧
      t.fans = s.fans.set f (some { started with
        state := .unreachable, slotHeld := false, timer := none, reversal := false, stepFrame := .none, part := none }))) ∧
  ∀ (s : State) (f : Nat) (r : Fan), s.fan f = some r →
    let given : State := { s with
      fans := s.fans.set f (some { r with slotHeld := false }),
      feeders := s.feeders.set r.feeder (slotReturned (s.feeder r.feeder) f) }
    s.giveBack f = if r.slotHeld = true then given.grants r.feeder else s

/-! ## Orders of doors, the planner and the transfers (chapters 8, 9 and 11) -/

/-- SET DOOR is checked whole: NO SUCH UNIT, BAD BUFFER, BAD PARAMETER, NO SUCH UNIT. Otherwise the fields present are
clamped and stored, a cap list present replaces the one held, a changed hold limit or run-on time moves its running
timer, which may expire at once, and the result shows what is in force (R136, R140, R143, R144, R183). A cap list
replaced at a door in an open state has the caps of the fans in the old list and the new one worked out anew (R138); a
door that calls, and one whose run-on ends, brings its passage fan to the doors' request (R139). The other doors, caps
and requests are left. That a refused SET DOOR returns an empty body is the model's choice (log 99). -/
def Obligations.SetDoorStoresSettings : Prop :=
  ∀ (s : State) (slot : Nat), s.orderReady slot 0x14 →
    ∃ t, exec .setDoor s = .next t ∧
      let b := s.orderBody slot
      let n := u8 b 0
      let p := u8 b 1
      let offset := u16 b 8
      let length := u16 b 10
      let listed := (List.range (length / 2)).map fun i =>
        ((s.readByte (offset + 2 * i)).toNat, (s.readByte (offset + 2 * i + 1)).toNat)
      let badRegion := present p 3 = true ∧ (offset < 0x3600 ∨ 0x8000 < offset + length)
      let badList := present p 3 = true ∧ (length % 2 ≠ 0 ∨ 8 < listed.length ∨ ¬(listed.map Prod.fst).Nodup)
      let badFan := present p 3 = true ∧ ∃ f ∈ listed.map Prod.fst, s.fan f = none
      (s.door n = none → orderRefused s t slot .noSuchUnit) ∧
      ∀ d, s.door n = some d →
        (badRegion → orderRefused s t slot .badBuffer) ∧
        (¬badRegion → badList → orderRefused s t slot .badParameter) ∧
        (¬badRegion → ¬badList → badFan → orderRefused s t slot .noSuchUnit) ∧
        (¬badRegion → ¬badList → ¬badFan →
          let hold := if present p 0 then clampNat 10 600 (u16 b 2) else d.holdLimit
          let step := if present p 1 then clampNat 1 8 (u8 b 4) else d.passageStep
          let runOn := if present p 2 then clampNat 0 300 (u16 b 6) else d.runOn
          let caps := if present p 3 then listed.map fun e => (e.1, min e.2 8) else d.caps
          let clamped : Bool := decide ((present p 0 = true ∧ hold ≠ u16 b 2) ∨ (present p 1 = true ∧ step ≠ u8 b 4) ∨
            (present p 2 = true ∧ runOn ≠ u16 b 6) ∨ (present p 3 = true ∧ ∃ e ∈ listed, 8 < e.2))
          let held : Bool := d.holdTimer.any fun x =>
            decide (hold ≠ d.holdLimit ∧ 1000 * hold ≤ elapsed s.clock x.start)
          let ran : Bool := d.runOnTimer.any fun x =>
            decide (runOn ≠ d.runOn ∧ 1000 * runOn ≤ elapsed s.clock x.start)
          slotDoneWith s t slot (if clamped then .okClamped else .ok) false 1
            (le16 hold ++ [byte step, 0] ++ le16 runOn ++ [byte caps.length]) ∧
          reactionFrame s t ∧ t.channels = s.channels ∧ t.zones = s.zones ∧ t.plan = s.plan ∧
          t.doors = s.doors.set n (some { d with
            holdLimit := hold, passageStep := step, runOn := runOn, caps := caps,
            state := if held then .heldOpen else d.state,
            holdTimer := if held then none else
              d.holdTimer.map fun x => if hold = d.holdLimit then x else { x with dur := 1000 * hold },
            runOnTimer := if ran then none else
              d.runOnTimer.map fun x => if runOn = d.runOn then x else { x with dur := 1000 * runOn },
            smoke := if ran then false else d.smoke }) ∧
          ∀ f g, s.fan f = some g → ∃ g', t.fan f = some g' ∧ g'.source = g.source ∧
            let relisted := present p 3 = true ∧ d.state ≠ .none ∧ d.state ≠ .closed ∧
              (f ∈ d.caps.map Prod.fst ∨ f ∈ caps.map Prod.fst)
            let calls := (d.state ≠ .none ∧ d.state ≠ .closed) ∨ (d.state = .closed ∧ d.runOnTimer.isSome = true) ∨
              ran = true
            (relisted → capOfDoors t.doors f g.top g'.cap ∧ (g'.cap ≠ g.cap → g'.commanded.step ≤ g'.cap)) ∧
            (¬relisted → g'.cap = g.cap) ∧
            (d.passage ≠ some f ∨ ¬calls → g'.requested = g.requested) ∧
            (d.passage = some f → calls → f < s.passageWritten.length → passageFollows s t f g))

/-- DOOR SIGNAL: RING NOT RUNNING, NO SUCH UNIT, BAD PARAMETER for an unknown mode. Otherwise the door's source and
manual mode are stored and a signal order of the door that was in progress ends SUPERSEDED. For an UNREACHABLE door the
order ends UNREACHABLE; for a door whose station can be reached it ends OK at once when the wanted mode is confirmed and
no beacon frame is under way, and otherwise stays as the door's signal order; without a beacon frame a DOOR BEACON with
the wanted mode (R145: `beaconMode`) is then offered: it joins the station's queue when that has room, and the door has
no frame when it has none (R146). A DOOR BEACON that has ended: BEACON ACK makes the mode that the frame carried the
confirmed one, and ends the signal order OK when it is the wanted one; NO DELIVERY and NO ANSWER make the confirmed mode
UNKNOWN and end the order so; the wanted mode is then offered again unless it is the confirmed one (R146, R147). That the
mode of a BEACON ACK is that of the frame it answers (log 68), that a refused order returns an empty body (log 99), that a
BEACON ACK is one whatever its qualifier (log 108), and that a frame a full queue refused is offered at such an order too
(log 100), is the model's choice. -/
def Obligations.DoorSignalSetsBeaconSource : Prop :=
  (∀ (s : State) (slot : Nat), s.orderReady slot 0x15 → s.numbersSound →
    ∃ t, exec .doorSignal s = .next t ∧
      let b := s.orderBody slot
      let n := u8 b 0
      let running := s.ring.state ≠ .idle ∧ s.ring.state ≠ .enrolling
      (¬running → orderRefused s t slot .ringNotRunning) ∧
      (running → s.door n = none → orderRefused s t slot .noSuchUnit) ∧
      (∀ d, running → s.door n = some d → 3 < u8 b 1 → orderRefused s t slot .badParameter) ∧
      ∀ d, running → s.door n = some d → u8 b 1 ≤ 3 → d.signal ≠ some slot →
        let src : Source := if u8 b 1 = 3 then .auto else .manual
        let mode : BeaconMode :=
          if u8 b 1 = 0 then .dark else if u8 b 1 = 1 then .guide else if u8 b 1 = 2 then .alarm else d.manualMode
        let wanted := beaconMode s.plan { d with source := src, manualMode := mode }
        let body : List Byte :=
          [byte n, byte src.code, byte wanted.code, byte ((d.confirmed.map BeaconMode.code).getD 0xFF)]
        let atOnce := d.confirmed = some wanted ∧ d.beacon = .none
        reactionFrame s t ∧ t.intake = s.intake.tail ∧
        (∀ k o, d.signal = some k → s.activeOrder k = some o →
          t.activeOrder k = none ∧ t.readByte (slotAt k) = 3 ∧ t.readByte (slotAt k + 2) = 0x21 ∧
          t.readByte (flagAt k) = 1) ∧
        (d.state = .unreachable →
          slotDoneWith s t slot .unreachable false 1 body ∧
          t.doors = s.doors.set n (some { d with source := src, manualMode := mode, signal := none })) ∧
        (d.state ≠ .unreachable → s.reachable d.station = true → atOnce →
          slotDoneWith s t slot .ok false 1 body ∧
          t.doors = s.doors.set n (some { d with source := src, manualMode := mode, signal := none })) ∧
        (d.state ≠ .unreachable → s.reachable d.station = true → ¬atOnce →
          let offers := d.beacon = .none ∧ (s.entry d.station).queue.length < 8
          slotTakenBy s t slot (.signal n) ∧
          t.doors = s.doors.set n (some { d with
            source := src, manualMode := mode, signal := some slot, beacon := if offers then .queued else d.beacon }) ∧
          t.ring = if offers then
              { s.ring with entries := s.ring.entries.modify (d.station - 1) fun e => { e with
                  queue := e.queue ++ [{ kind := .doorBeacon, payload := [byte d.index, byte wanted.code],
                                         origin := .beacon n wanted, held := 0 }] } }
            else s.ring)) ∧
  ∀ (s : State) (n : Nat) (mode : BeaconMode) (e : FrameEnding) (d : Door), s.door n = some d →
    s.reachable d.station = true → Memory.wf s.mem = true →
    let t := s.beaconEnded n mode e
    let confirmed : Option BeaconMode := match e with | .reply _ => some mode | .noDelivery => none | .noAnswer => none
    let wanted := beaconMode s.plan d
    let ends : Option OrderOutcome :=
      match e with
      | .reply _ => if mode = wanted then some .ok else none
      | .noDelivery => some .noDelivery
      | .noAnswer => some .noAnswer
    let offers := d.state ≠ .unreachable ∧ confirmed ≠ some wanted ∧ (s.entry d.station).queue.length < 8
    t = { s with
      mem := t.mem, attn := t.attn, active := t.active, events := t.events,
      doors := s.doors.set n (some { d with
        confirmed := confirmed, beacon := if offers then .queued else .none,
        signal := if ends.isSome then none else d.signal }),
      ring := if offers then
          { s.ring with entries := s.ring.entries.modify (d.station - 1) fun x => { x with
              queue := x.queue ++ [{ kind := .doorBeacon, payload := [byte d.index, byte wanted.code],
                                     origin := .beacon n wanted, held := 0 }] } }
        else s.ring } ∧
    (ends = none ∨ d.signal = none → t.mem = s.mem ∧ t.active = s.active ∧ t.attn = s.attn) ∧
    ∀ out k o, ends = some out → d.signal = some k → k < 64 → s.activeOrder k = some o →
      t.activeOrder k = none ∧ t.readByte (flagAt k) = 1 ∧
      t.readBytes (slotAt k) 64 = completedSlot o.copy out false s.clock 1
        [byte n, byte d.source.code, byte wanted.code, byte ((confirmed.map BeaconMode.code).getD 0xFF)]

/-- VENT PLAN: an unknown regime, or an unknown direction with FIRE, ends BAD PARAMETER; NORMAL or FIRE in IDLE or
ENROLLING ends RING NOT RUNNING; a fire zone that is 16 or above or not configured ends BAD ZONE. Otherwise the fire
fields present are clamped and stored, a start count below the minimum count is raised to it, and the regime is applied
as R162 gives it: FIRE, and NORMAL without smoke, make a selection, which fans are picked and what they and the others
are asked for being as R153, R154 and R157 give them (`selectionMade`); OFF, and NORMAL with smoke, leave what the jet
fans are asked for. A change of regime, and every FIRE, is journalled with the regimes before and after. With every order in hand owned, the order completes with the planner's numbers as they stand after
it. That a refused VENT PLAN returns an empty body (log 99) and that the w shown stays that of the last control step (log
93) is the model's choice; that the measurement stays is deduced (log 27). -/
def Obligations.VentPlanAppliesRegime : Prop :=
  ∀ (s : State) (slot : Nat), s.orderReady slot 0x16 →
    ∃ t, exec .ventPlan s = .next t ∧
      let b := s.orderBody slot
      let set := u8 b 3
      let running := s.ring.state ≠ .idle ∧ s.ring.state ≠ .enrolling
      let unknown := 2 < u8 b 0 ∨ (u8 b 0 = 2 ∧ 1 < u8 b 2)
      let stopped := u8 b 0 ≠ 0 ∧ ¬running
      let badZone := u8 b 0 = 2 ∧ (16 ≤ u8 b 1 ∨ (s.zone (u8 b 1)).configured = false)
      (unknown → orderRefused s t slot .badParameter) ∧
      (¬unknown → stopped → orderRefused s t slot .ringNotRunning) ∧
      (¬unknown → ¬stopped → badZone → orderRefused s t slot .badZone) ∧
      (¬unknown → ¬stopped → ¬badZone →
        let target := if present set 0 then clampNat 50 600 (u16 b 4) else s.plan.target
        let band := if present set 1 then clampNat 10 200 (u16 b 6) else s.plan.band
        let first := if present set 2 then clampNat 1 48 (u8 b 8) else s.plan.startCount
        let least := if present set 3 then clampNat 0 48 (u8 b 9) else s.plan.minCount
        let period := if present set 4 then clampNat 5 60 (u8 b 10) else s.plan.period
        let clamped : Bool := decide ((present set 0 = true ∧ target ≠ u16 b 4) ∨ (present set 1 = true ∧ band ≠ u16 b 6) ∨
          (present set 2 = true ∧ first ≠ u8 b 8) ∨ (present set 3 = true ∧ least ≠ u8 b 9) ∨
          (present set 4 = true ∧ period ≠ u8 b 10) ∨ first < least)
        let p : Planner := { s.plan with
          target := target, band := band, startCount := max first least, minCount := least, period := period }
        let jetsKept := ∀ f r, s.fan f = some r → r.kind = .jet →
          ∃ r', t.fan f = some r' ∧ r'.requested = r.requested ∧ r'.source = r.source
        reactionFrame s t ∧ t.intake = s.intake.tail ∧ t.channels = s.channels ∧ t.zones = s.zones ∧
        (s.plan.regime ≠ t.plan.regime ∨ t.plan.regime = .fire →
          recorded s t .regime (if t.plan.regime = .fire then u8 b 1 else 0) s.plan.regime.code t.plan.regime.code) ∧
        (s.ordersOwned → slotDoneWith s t slot (if clamped then .okClamped else .ok) false 1
          ([byte t.plan.regime.code, byte t.plan.fireCount, byte (t.plan.excluded[0]?.getD 0xFF),
              byte (t.plan.excluded[1]?.getD 0xFF)] ++
            le16 target ++ le16 band ++ [byte (max first least), byte least, byte period])) ∧
        (u8 b 0 = 0 →
          t.plan = { p with
            regime := .off, excluded := [], fireCount := 0, planTimer := none, controlTimer := none, picked := [],
            smokeHold := false, candidates := t.plan.candidates, kept := t.plan.kept } ∧ jetsKept) ∧
        (u8 b 0 = 1 →
          t.plan = { p with
            regime := .normal, excluded := [], fireCount := 0, controlTimer := none,
            smokeHold := decide (0 < s.plan.smokeCount),
            planTimer := some { start := s.clock, dur := 1000 * s.plan.planInterval },
            picked := t.plan.picked, candidates := t.plan.candidates, kept := t.plan.kept } ∧
          (s.plan.smokeCount = 0 →
            selectionMade s t (s.plan.stages.getD s.plan.tunnel 0)) ∧
          (0 < s.plan.smokeCount → t.plan.picked = s.plan.picked ∧ jetsKept)) ∧
        (u8 b 0 = 2 →
          t.plan = { p with
            regime := .fire, fireZone := u8 b 1, smokeDir := if u8 b 2 = 0 then .plus else .minus,
            excluded :=
              if u8 b 2 = 0 then (if u8 b 1 < 15 then [u8 b 1, u8 b 1 + 1] else [u8 b 1])
              else (if u8 b 1 = 0 then [u8 b 1] else [u8 b 1, u8 b 1 - 1]),
            fireCount := min (max first least) t.plan.candidates,
            controlTimer := some { start := s.clock, dur := 1000 * period }, planTimer := none, smokeHold := false,
            picked := t.plan.picked, candidates := t.plan.candidates, kept := t.plan.kept } ∧
          t.plan.picked.length = t.plan.fireCount ∧ selectionMade s t (max first least)))

/-- SET STAGES: a direction code other than + or - in a present group ends BAD PARAMETER; otherwise the groups present
are clamped and stored and all four are returned. In NORMAL an evaluation restarts the plan timer and, without SMOKE
HOLD, makes a selection by the new groups (R153, R154, R157: `selectionMade`); in OFF and FIRE nothing else changes. That
a refused SET STAGES returns an empty body is the model's choice (log 99). -/
def Obligations.SetStagesStoresGroups : Prop :=
  ∀ (s : State) (slot : Nat), s.orderReady slot 0x17 →
    ∃ t, exec .setStages s = .next t ∧
      let b := s.orderBody slot
      let set := u8 b 0
      (present set 3 = true → 1 < u8 b 10 → orderRefused s t slot .badParameter) ∧
      (present set 3 = false ∨ u8 b 10 ≤ 1 →
        let stages := (List.range 5).map fun i =>
          if present set 0 then min (u8 b (1 + i)) 48 else s.plan.stages.getD i 0
        let interval := if present set 1 then clampNat 10 300 (u16 b 6) else s.plan.planInterval
        let least := if present set 2 then min (u16 b 8) 1800 else s.plan.minRun
        let dir : Dir := if present set 3 then (if u8 b 10 = 0 then .plus else .minus) else s.plan.normalDir
        let step := if present set 3 then clampNat 1 8 (u8 b 11) else s.plan.normalStep
        let clamped : Bool := decide ((present set 0 = true ∧ ∃ i ∈ List.range 5, 48 < u8 b (1 + i)) ∨
          (present set 1 = true ∧ interval ≠ u16 b 6) ∨ (present set 2 = true ∧ least ≠ u16 b 8) ∨
          (present set 3 = true ∧ step ≠ u8 b 11))
        let p : Planner := { s.plan with
          stages := stages, planInterval := interval, minRun := least, normalDir := dir, normalStep := step }
        slotDoneWith s t slot (if clamped then .okClamped else .ok) false 1
          ([0x0F] ++ stages.map byte ++ le16 interval ++ le16 least ++ [byte dir.code, byte step]) ∧
        reactionFrame s t ∧
        (s.plan.regime ≠ .normal →
          t = { s with
            mem := t.mem, imageCounts := t.imageCounts, intake := s.intake.tail, attn := s.attn ||| 1, plan := p }) ∧
        (s.plan.regime = .normal →
          t.channels = s.channels ∧ t.zones = s.zones ∧ t.doors = s.doors ∧
          t.plan = { p with
            planTimer := some { start := s.clock, dur := 1000 * interval }, picked := t.plan.picked,
            candidates := t.plan.candidates, kept := t.plan.kept } ∧
          (s.plan.smokeHold = true → t.fans = s.fans ∧ t.plan.picked = s.plan.picked) ∧
          (s.plan.smokeHold = false →
            selectionMade s t (stages.getD s.plan.tunnel 0))))

/-- PARAM READ and PARAM WRITE are refused by the first test of R176 that fails. An order that passes makes the station's
context active and forms the first frame of the words that R177 allows: it is queued for the station when the queue has
room, and otherwise waits to be offered again. In PAIRED an index above 255 among them ends the transfer BAD PARAMETER
when it is read. That the list position moves when a frame is formed (deduced, log 21), that the refused index counts
among the pairs or words read, so that position j + 1 is shown (log 94), and that the index field of a PAIRED head word is
0 (log 103), is the model's choice; that a transfer refused UNREACHABLE has count 0 is deduced (log 11). -/
def Obligations.ParamOrdersFormFirstFrame : Prop :=
  ∀ (s : State) (slot : Nat) (write : Bool), s.shaped → s.orderReady slot (if write then 0x19 else 0x18) →
    ∃ t, exec (if write then .paramWrite else .paramRead) s = .next t ∧
      let b := s.orderBody slot
      let st := u8 b 0
      let mode := u8 b 1
      let start := u16 b 2
      let count := u16 b 4
      let offset := u16 b 6
      let length := u16 b 8
      let running := s.ring.state ≠ .idle ∧ s.ring.state ≠ .enrolling
      let odd := 2 < mode ∨ count = 0 ∨ 256 < count ∨ (mode ≠ 2 ∧ 255 < start)
      let badRegion := offset < 0x3600 ∨ 0x8000 < offset + length
      let badLength := length ≠ (if mode = 2 then 4 * count else 2 * count)
      (¬running → orderRefused s t slot .ringNotRunning) ∧
      (running → s.station st = none → orderRefused s t slot .noSuchUnit) ∧
      ∀ r, running → s.station st = some r →
        let away := r.link = .down ∨ r.link = .paging ∨ r.link = .pending
        (odd → orderRefused s t slot .badParameter) ∧
        (¬odd → badRegion → orderRefused s t slot .badBuffer) ∧
        (¬odd → ¬badRegion → badLength → orderRefused s t slot .badParameter) ∧
        (¬odd → ¬badRegion → ¬badLength → away → orderRefusedCounting s t slot .unreachable 0) ∧
        (¬odd → ¬badRegion → ¬badLength → ¬away → (s.param st).isSome = true → orderRefused s t slot .busy) ∧
        (¬odd → ¬badRegion → ¬badLength → ¬away → s.param st = none →
          let last := (r.base.map (·.lastParam)).getD 0
          let word (j : Nat) : Nat := s.readWord (offset + 2 * j)
          let span (most : Nat) : Nat := if start ≤ last then min most (last - start + 1) else most
          let k :=
            if mode = 2 then min (if write then 3 else 7) count
            else if mode = 1 then min (if write then 7 else 8) count
            else min (span (if write then 7 else 8)) count
          let listIndex (j : Nat) : Nat := if write then word (2 * j) else word j
          let words : List Nat :=
            if mode = 2 then
              (if write then (List.range k).flatMap fun j => [word (2 * j), word (2 * j + 1)]
                else (List.range k).map word)
            else if write then (List.range k).map word else []
          let head := (if mode = 2 then 0 else start) + 0x100 * (k - 1) + (if write then 0x1000 else 0) + 0x2000 * mode
          let payload := (head :: words).flatMap le16
          let room : Bool := decide ((s.entry st).queue.length < 8)
          (∀ j, mode = 2 → j < k → 255 < listIndex j → (∀ i < j, listIndex i ≤ 255) →
            slotDoneWith s t slot .badParameter false 0
              ([byte st, if write then 1 else 0, 2, 0] ++ le16 0 ++ le16 (j + 1) ++ le16 0) ∧
            t = { s with mem := t.mem, intake := s.intake.tail, attn := s.attn ||| 1 } ∧
            ∀ a, ¬slotPlace slot a → t.readByte a = s.readByte a) ∧
          (mode ≠ 2 ∨ (∀ j < k, listIndex j ≤ 255) →
            slotTakenBy s t slot (.param st) ∧ memoryKeptBeside s t slot ∧
            t = { s with
              mem := t.mem, imageCounts := t.imageCounts, intake := s.intake.tail,
              active := s.active ++ [{ slot := slot, copy := s.readBytes (slotAt slot) 64, work := .param st }],
              params := s.params.set (st - 1) (some {
                slot := slot, write := write,
                mode := if mode = 0 then .increment else if mode = 1 then .fixed else .paired, last := last,
                offset := offset, count := count, position := if write ∨ mode = 2 then k else 0, current := start,
                done := 0,
                frame := some {
                  indices :=
                    if mode = 2 then (List.range k).map listIndex
                    else if mode = 1 then List.replicate k start
                    else (List.range k).map fun j => start + j,
                  payload := payload, sent := room },
                aborted := false }),
              ring := if room then
                  { s.ring with entries := s.ring.entries.modify (st - 1) fun e => { e with
                      queue := e.queue ++ [{ kind := .param, payload := payload, origin := .param, held := 0 }] } }
                else s.ring }))

/-- A reply to the PARAM frame in flight (R175, R177 to R180). The values a READ brought are stored at their places and
the words done counted. A transfer marked aborted then ends ABORTED, one that met BEYOND END or READ ONLY with that
outcome and the index of the stop; after DONE the current index moves as the mode says, wrapping to 0 past the station's
last in a READ, and in a WRITE past it read anew from the list, BAD PARAMETER above 255; then the transfer ends OK when
nothing remains, or forms its next frame, queued when the queue has room and otherwise offered again. A frame that ended
without a reply ends it with its outcome, or ABORTED when it is marked. That the list position moves when a frame is
formed is deduced (log 21). The model's choice is that a refused index of a list word or pair counts as read (log 94);
that DONE counts all k words of the frame and a stop at most k, with index 0 shown for a stop at k, and that a PARAM ACK
to a READ counts and brings no values (log 95); that the index field of a PAIRED head word is 0 (log 103); that of an
odd payload length half, rounded down, is the words done (log 104), and of a PARAM ACK its payload byte 0, whatever its
length (log 107); and that the index of a WRITE frame sent above L and answered DONE runs on past L and 255, modulo 256 in
the head word (log 112); and that an aborted transfer whose last frame ended DONE at L does not read the new-start word
(log 116). -/
def Obligations.ParamReplyGoesOnOrEnds : Prop :=
  ∀ (s : State) (st : Nat) (x : Transfer) (fr : ParamFrame), s.param st = some x → x.frame = some fr →
    Memory.wf s.mem = true → 0x3600 ≤ x.offset → x.slot < 64 →
    let ended (t : State) (out : OrderOutcome) (y : Transfer) (stop : Nat) : Prop :=
      t.param st = none ∧ t.ring = s.ring ∧ t.activeOrder x.slot = none ∧
      ∀ o, s.activeOrder x.slot = some o →
        t.readByte (flagAt x.slot) = 1 ∧ t.attn = s.attn ||| 1 ∧
        t.readBytes (slotAt x.slot) 64 = completedSlot o.copy out false s.clock y.done
          ([byte st, if x.write then 1 else 0, byte x.mode.code, 0] ++ le16 y.done ++ le16 y.position ++ le16 stop)
    (∀ (result words : Nat) (values : List Nat),
      let t := s.paramReply st result words values
      let k := fr.indices.length
      let n := if result = 0 then k else min k words
      let brought := if x.write then [] else values.take n
      let place := x.offset + 2 * (if x.mode = .paired then x.count + x.done else x.done)
      let y : Transfer := { x with done := x.done + n, frame := none }
      let word (j : Nat) : Nat := s.readWord (x.offset + 2 * j)
      let c := x.current + k
      let anew := x.mode = .increment ∧ x.write = true ∧ c = x.last + 1 ∧ x.position < x.count
      let z : Transfer :=
        if anew then { y with current := word x.position, position := x.position + 1 }
        else if x.mode = .increment then { y with current := if x.write = false ∧ x.last < c then 0 else c }
        else y
      let left := if x.write = true ∨ x.mode = .paired then z.count - z.position else z.count - z.done
      let span (most : Nat) : Nat := if z.current ≤ z.last then min most (z.last - z.current + 1) else most
      let k' :=
        if x.mode = .paired then min (if x.write then 3 else 7) left
        else if x.mode = .fixed then min (if x.write then 7 else 8) left
        else min (span (if x.write then 7 else 8)) left
      let listIndex (j : Nat) : Nat := if x.write then word (2 * (z.position + j)) else word (z.position + j)
      let next : List Nat :=
        if x.mode = .paired then
          (if x.write then (List.range k').flatMap fun j => [word (2 * (z.position + j)), word (2 * (z.position + j) + 1)]
            else (List.range k').map fun j => word (z.position + j))
        else if x.write then (List.range k').map fun j => word (z.position + j) else []
      let head := (if x.mode = .paired then 0 else z.current % 0x100) + 0x100 * (k' - 1) +
        (if x.write then 0x1000 else 0) + 0x2000 * x.mode.code
      let payload := (head :: next).flatMap le16
      let indices : List Nat :=
        if x.mode = .paired then (List.range k').map listIndex
        else if x.mode = .fixed then List.replicate k' z.current
        else (List.range k').map fun j => z.current + j
      let reads := x.mode = .paired ∧ ∃ j < k', 255 < listIndex j
      let goesOn := x.aborted = false ∧ result = 0 ∧ ¬(anew ∧ 255 < word x.position) ∧ 0 < left
      let formed (sent : Bool) : Transfer := { z with
        position := z.position + (if x.write = true ∨ x.mode = .paired then k' else 0),
        frame := some { indices := indices, payload := payload, sent := sent } }
      let room : Bool := decide ((s.entry st).queue.length < 8)
      t.readBytes place (2 * brought.length) = brought.flatMap le16 ∧
      (∀ a, ¬slotPlace x.slot a → ¬(place ≤ a ∧ a < place + 2 * brought.length) → t.readByte a = s.readByte a) ∧
      (x.aborted = true → ended t .aborted y 0) ∧
      (x.aborted = false → result = 1 → ended t .beyondEnd y (fr.indices.getD n 0)) ∧
      (x.aborted = false → 1 < result → ended t .readOnly y (fr.indices.getD n 0)) ∧
      (x.aborted = false → result = 0 → anew → 255 < word x.position → ended t .badParameter z 0) ∧
      (x.aborted = false → result = 0 → ¬(anew ∧ 255 < word x.position) → left = 0 → ended t .ok z 0) ∧
      (∀ j, goesOn → x.mode = .paired → j < k' → 255 < listIndex j → (∀ i < j, listIndex i ≤ 255) →
        ended t .badParameter { z with position := z.position + j + 1 } 0) ∧
      (goesOn → ¬reads → s.reachable st = false → ended t .unreachable (formed false) 0) ∧
      (goesOn → ¬reads → s.reachable st = true →
        t = { s with
          mem := t.mem, params := s.params.set (st - 1) (some (formed room)), events := t.events,
          ring := if room then
              { s.ring with entries := s.ring.entries.modify (st - 1) fun e => { e with
                  queue := e.queue ++ [{ kind := .param, payload := payload, origin := .param, held := 0 }] } }
            else s.ring })) ∧
    (∀ out : OrderOutcome, ended (s.paramFailed st out) (if x.aborted then .aborted else out) x 0) ∧
    ∀ (rep : Reply) (o : OutFrame), s.outFrame rep.tag = some o → o.station = rep.source → o.station = st →
      o.frame.kind = .param → o.frame.origin = .param → rep.qualifier < 3 →
      (rep.kind = 6 → s.replyBack rep = (s.endOutFrame rep.tag).paramReply st rep.qualifier (rep.length / 2)
        ((List.range (rep.length / 2)).map fun i => u16 rep.payload (2 * i))) ∧
      (rep.kind = 7 → s.replyBack rep = (s.endOutFrame rep.tag).paramReply st rep.qualifier (u8 rep.payload 0) [])

/-! ## Events of the ring (chapters 1 to 3) -/

/-- CYCLE_TIMER_EXPIRY closes the cycle and opens the next: the number is raised by 1, the timer restarts with the
interval in force, every train that was sent and not accepted is counted lost, and a train is sent out of A, and one out
of B exactly when two trains run. In CLOSED, with at most two trains lost in succession, the ring stays CLOSED and the
bytes sent are those of one side-A train with STOP INSERT clear. No ENROL is in progress, or no train has been lost: a
lost train may end an ENROL. The third train lost in succession in CLOSED is a fold: the cause and the cycle are
recorded, the fold count is raised, both sides are LIVE, the ring is FOLDED, as RING FOLDED records, and two trains are sent in the cycle
that opens. -/
def Obligations.CycleTimerOpensNextCycle : Prop :=
  (∀ s : State, s.ring.state ≠ .idle → s.ring.phase = .running → timerDue s.clock s.ring.timer = true →
    (s.enrol = none ∨ (s.ring.lostTrain .a = false ∧ s.ring.lostTrain .b = false)) →
    ∃ t, exec .cycleTimerExpiry s = .next t ∧
      t.ring.cycle = s.ring.cycle + 1 ∧ t.ring.timer = some { start := s.clock, dur := s.ring.interval } ∧
      t.ring.phase = .running ∧ t.ring.heard = [] ∧ t.ring.interval = s.ring.interval ∧
      t.ring.healTime = s.ring.healTime ∧ t.ring.late = s.ring.late ∧
      (let n := (if s.ring.lostTrain .a = true then 1 else 0) + (if s.ring.lostTrain .b = true then 1 else 0)
      t.ring.lost = if n = 0 then s.ring.lost else min (s.ring.lost + n) 65535) ∧
      (∃ x, t.ring.trainA = some x ∧ x.accepted = false ∧ x.frames.length ≤ 12 ∧ x.assign.length = 16) ∧
      (t.ring.trainB.isSome = true ↔ t.ring.kind = .two) ∧
      t.pending = s.pending ∧ t.clock = s.clock ∧ t.mask = s.mask ∧ t.sigA = s.sigA ∧ t.sigB = s.sigB ∧
      t.intake = s.intake ∧ t.formatting = s.formatting ∧
      (s.numbersSound → Memory.wf s.mem = true → ∀ a, 0x3600 ≤ a → t.readByte a = s.readByte a) ∧
      (s.ring.state = .closed → (s.ring.lostTrain .a = true → s.fold.runA < 2) →
        t.ring.state = .closed ∧ t.ring.kind = .one ∧ t.ring.trainB = none ∧
        ∀ x, t.ring.trainA = some x → t.ring.txA = t.trainBytes .a false false x)) ∧
  ∀ s : State, s.ring.state = .closed → s.ring.phase = .running → timerDue s.clock s.ring.timer = true →
    s.enrol = none → s.ring.kind = .one → s.ring.lostTrain .a = true → s.fold.runA = 2 → s.fold.recloseDue = false →
    ∃ t, exec .cycleTimerExpiry s = .next t ∧
      t.ring.state = .folded ∧ t.ring.kind = .two ∧ t.attn.getLsbD 4 = true ∧
      recorded s t .ringFolded 0 FoldCause.trainsLost.code s.ring.cycle.toNat ∧
      t.fold.cause = .trainsLost ∧ t.fold.cycle = s.ring.cycle ∧ t.fold.count = min (s.fold.count + 1) 65535 ∧
      t.fold.failures = s.fold.failures ∧ t.fold.runA = 0 ∧ t.fold.runB = 0 ∧ t.fold.deadA = false ∧
      t.fold.deadB = false ∧ t.ring.cycle = s.ring.cycle + 1 ∧
      (∃ x, t.ring.trainA = some x ∧ t.ring.txA = t.trainBytes .a false false x) ∧
      (∃ x, t.ring.trainB = some x ∧ t.ring.txB = t.trainBytes .b false false x)

/-- TRAIN_ARRIVAL (R1, R6, R48, R51, R55). In IDLE, and with the number of a cycle not opened since the ring left IDLE
(the model's choice, log 13), the train is discarded uncounted. One that no longer can be accepted, having another number
or its side's train accepted already, or arriving between a close and the opening, is late: discarded whole and counted;
that a later number and the gap are late too is the model's choice (log 13). The train of its side and of the cycle in
progress (an unreadable header: of the side of the port while two trains run, or of no side and late once that side's
train is accepted, else of A, log 13) is accepted: its side is LIVE, its run 0 in CLOSED and ENROLLING, and its command
frames, heartbeats and reply slots are handled in this order (log 18), each as the statements on them say. A side A train
at A-receive shows a fold first: in CLOSED the ring is FOLDED, in ENROLLING the ENROL ends RING FOLDED, with count 1 and
an empty body (deduced, log 11), the heal mark clear (the model's choice, log 97), and the train is still accepted or late
(log 17); in RECLOSING it fails the attempt, and
one accepted at B-receive closes the ring, both before its parts are handled (the model's choice, log 76). -/
def Obligations.TrainArrivalAcceptsOrCounts : Prop :=
  ∀ (s : State) (port : Port) (bytes : List Byte),
    let h := readHeader bytes
    let out := exec (.trainArrival port bytes) s
    let handle (m : State) (side : Port) (x : SentTrain) : State :=
      let n := x.frames.length
      let dead := if side = .a then m.fold.deadA else m.fold.deadB
      let accept (y : SentTrain) : SentTrain := { y with accepted := true }
      let took : State := { m with
        attn := if dead then m.attn ||| 0x10 else m.attn,
        ring := { m.ring with
          trainA := if side = .a then m.ring.trainA.map accept else m.ring.trainA,
          trainB := if side = .b then m.ring.trainB.map accept else m.ring.trainB },
        fold := { m.fold with
          deadA := if side = .a then false else m.fold.deadA, deadB := if side = .b then false else m.fold.deadB,
          runA := if m.ring.state = .closed ∨ m.ring.state = .enrolling then 0 else m.fold.runA } }
      let framed := (List.range n).foldl (fun u i =>
        u.placeBack side (x.frames.getD i (.wide .clearAddress)) (readFrame bytes i)) (took.handled .ring)
      let heard := (List.range 24).foldl (fun u i =>
        let beat := (readPart bytes (21 + 26 * n + 16 * i) 16).map readBeat
        if u.ring.kind = .one then u.beatOne side (i + 1) beat else u.beatTwo side (i + 1) beat) framed
      (List.range 16).foldl (fun u i => u.slotBack (x.assign.getD i 0) (readSlot bytes n i)) heard
    let shown (z : State) : Prop := ∃ t, out = .next t ∧
      t = { z with mem := t.mem, imageCounts := t.imageCounts, events := s.events } ∧
      (Memory.wf z.mem = true → ∀ a, ¬imagePlace a → t.readByte a = z.readByte a)
    let counted (m : State) : State := { m with ring := { m.ring with late := min (m.ring.late + 1) 65535 } }
    let folds := s.ring.state = .closed ∨ s.ring.state = .enrolling
    (s.ring.state = .idle → out = .next s) ∧
    (∀ y, h = some y → s.ring.opened ≤ (s.ring.cycle - y.cycle).toNat → out = .next s) ∧
    (∀ y, s.ring.state ≠ .idle → h = some y → (s.ring.cycle - y.cycle).toNat < s.ring.opened →
      y.cycle ≠ s.ring.cycle ∨ s.ring.phase ≠ .running ∨ (∀ x, s.ring.train y.side = some x → x.accepted = true) →
      (port = .b ∨ y.side = .b ∨ s.ring.state = .folded → shown (counted s)) ∧
      (port = .a → y.side = .a → folds → shown (counted (s.detectFold .turnedTrain))) ∧
      (∀ r, port = .a → y.side = .a → s.ring.state = .reclosing → s.fold.reclosing = some r →
        (y.cycle = r + 1 ∨ y.cycle = r + 2 → shown (counted s.recloseFail)) ∧
        (y.cycle ≠ r + 1 → y.cycle ≠ r + 2 → shown (counted s)))) ∧
    (s.ring.state ≠ .idle → h = none →
      let two := s.ring.kind = .two ∨ s.ring.kind = .closedTwo
      let spent (side : Port) := ∃ x, s.ring.train side = some x ∧ x.accepted = true
      (two → spent port → shown (counted s)) ∧
      (¬(two ∧ spent port) →
        s.ring.phase ≠ .running ∨ (∀ x, s.ring.train (if two then port else .a) = some x → x.accepted = true) →
        (port = .b ∨ s.ring.state = .folded → shown (counted s)) ∧
        (port = .a → folds → shown (counted (s.detectFold .turnedTrain))) ∧
        (∀ r, port = .a → s.ring.state = .reclosing → s.fold.reclosing = some r →
          (s.ring.kind = .recloseOne → shown (counted s.recloseFail)) ∧
          (s.ring.kind ≠ .recloseOne → shown (counted s))))) ∧
    (∀ side x, s.ring.state ≠ .idle → s.ring.phase = .running → 0 < s.ring.opened →
      h = some { cycle := s.ring.cycle, side := side } ∨
        (h = none ∧ side = if s.ring.kind = .two ∨ s.ring.kind = .closedTwo then port else .a) →
      s.ring.train side = some x → x.accepted = false →
      (side = .b ∨ s.ring.state = .folded ∨ (port = .b ∧ folds) → shown (handle s side x)) ∧
      (side = .a → port = .a → folds → shown (handle (s.detectFold .turnedTrain) side x)) ∧
      (side = .a → port = .b → s.ring.state = .reclosing → shown (handle s.recloseSuccess side x)) ∧
      (∀ r, side = .a → port = .a → s.ring.state = .reclosing → s.fold.reclosing = some r →
        (h.isSome = true → (s.ring.cycle = r + 1 ∨ s.ring.cycle = r + 2 → shown (handle s.recloseFail side x)) ∧
          (s.ring.cycle ≠ r + 1 → s.ring.cycle ≠ r + 2 → shown (handle s side x))) ∧
        (h = none → s.ring.kind = .recloseOne → shown (handle s.recloseFail side x)) ∧
        (h = none → s.ring.kind ≠ .recloseOne → shown (handle s side x)))) ∧
    (∀ x, s.ring.state = .closed → s.ring.phase = .running → s.ring.kind = .one → port = .b → s.enrol = none →
      0 < s.ring.opened → s.ring.trainA = some x → x.accepted = false →
      (h = none ∨ h = some { cycle := s.ring.cycle, side := .a }) →
      ∃ t, out = .next t ∧
        t.ring.state = .closed ∧ t.ring.trainA = some { x with accepted := true } ∧ t.fold.runA = 0 ∧
        t.fold.deadA = false ∧ t.ring.late = s.ring.late ∧ t.ring.lost = s.ring.lost ∧
        t.ring.cycle = s.ring.cycle ∧ t.ring.timer = s.ring.timer ∧ t.ring.interval = s.ring.interval ∧
        t.pending = s.pending ∧ t.clock = s.clock ∧ t.mask = s.mask ∧ t.intake = s.intake ∧ t.sigA = s.sigA ∧
        t.sigB = s.sigB) ∧
    let m := s.detectFold .turnedTrain
    (s.ring.state = .closed →
      m = { s with
        mem := m.mem, attn := m.attn, jWrite := m.jWrite, jGap := m.jGap, jSeq := m.jSeq, events := m.events,
        ring := { s.ring with state := .folded },
        fold := { s.fold with
          cause := .turnedTrain, cycle := s.ring.cycle, count := min (s.fold.count + 1) 65535, runA := 0, runB := 0,
          deadA := false, deadB := false, framePtrB := 1, slotPtrB := 1, healStart := none } } ∧
      m.attn.getLsbD 4 = true) ∧
    (s.ring.state = .closed ∨ (s.ring.state = .enrolling ∧ s.enrol.isSome = true) →
      recorded s m .ringFolded 0 FoldCause.turnedTrain.code s.ring.cycle.toNat) ∧
    ∀ e o, s.ring.state = .enrolling → s.enrol = some e → s.activeOrder e.slot = some o → s.numbersSound →
      Memory.wf s.mem = true →
      m.ring.state = .idle ∧ m.enrol = none ∧ m.stations = [] ∧ m.ring.timer = none ∧
      m.fold = { Fold.reset with count := min (s.fold.count + 1) 65535, failures := s.fold.failures } ∧
      m.activeOrder e.slot = none ∧ m.readByte (flagAt e.slot) = 1 ∧
      m.readBytes (slotAt e.slot) 64 = completedSlot o.copy .ringFolded false s.clock 1 []

/-- SIGNAL_DETECT_CHANGE. A level that is no change changes nothing; a return of the signal, or its loss at A outside
RECLOSING, changes the pin alone; its loss at B in CLOSED folds the ring with cause SIGNAL LOSS; its loss at either port
in RECLOSING fails the attempt; its loss at B in ENROLLING ends the ENROL and the ring is IDLE, the heal mark clear (the
model's choice, log 97). A fold is journalled as RING FOLDED with its cause and cycle, a failed attempt as RECLOSE FAILED. -/
def Obligations.SignalDetectChangeFolds : Prop :=
  ∀ (s : State) (port : Port) (level : Bool),
    let before := if port = .a then s.sigA else s.sigB
    let pins (u : State) : State := if port = .a then { u with sigA := level } else { u with sigB := level }
    (before = level → exec (.signalDetectChange port level) s = .next s) ∧
    (before ≠ level → ∃ t, exec (.signalDetectChange port level) s = .next t ∧
      (level = true ∨ (port = .a ∧ s.ring.state ≠ .reclosing) ∨ s.ring.state = .idle ∨ s.ring.state = .folded →
        t = pins { s with mem := t.mem, imageCounts := t.imageCounts }) ∧
      (s.ring.state ≠ .enrolling → s.numbersSound → Memory.wf s.mem = true →
        ∀ a, ¬reactionPlace a → t.readByte a = s.readByte a) ∧
      (level = false → port = .b → s.ring.state = .closed →
        t = { s with
          mem := t.mem, imageCounts := t.imageCounts, attn := t.attn, jWrite := t.jWrite, jGap := t.jGap,
          jSeq := t.jSeq, sigB := false, ring := { s.ring with state := .folded },
          fold := { s.fold with
            cause := .signalLoss, cycle := s.ring.cycle, count := min (s.fold.count + 1) 65535, runA := 0, runB := 0,
            deadA := false, deadB := false, framePtrB := 1, slotPtrB := 1, healStart := none } } ∧
        t.attn.getLsbD 4 = true ∧ recorded s t .ringFolded 0 FoldCause.signalLoss.code s.ring.cycle.toNat) ∧
      (level = false → s.ring.state = .reclosing →
        t = pins { s with
          mem := t.mem, imageCounts := t.imageCounts, attn := t.attn, jWrite := t.jWrite, jGap := t.jGap,
          jSeq := t.jSeq, ring := { s.ring with state := .folded },
          fold := { s.fold with
            failures := min (s.fold.failures + 1) 65535, reclosing := none, healStart := none,
            recloseDue := false } } ∧
        t.attn.getLsbD 4 = true ∧ recorded s t .recloseFailed 0 s.ring.cycle.toNat 0) ∧
      ∀ e, level = false → port = .b → s.ring.state = .enrolling → s.enrol = some e →
        t.ring.state = .idle ∧ t.enrol = none ∧ t.stations = [] ∧ t.ring.timer = none ∧ t.attn.getLsbD 4 = true ∧
        recorded s t .ringFolded 0 FoldCause.signalLoss.code s.ring.cycle.toNat ∧
        t.fold = { Fold.reset with count := min (s.fold.count + 1) 65535, failures := s.fold.failures } ∧
        t.activeOrder e.slot = none ∧ t.fans = s.fans ∧ t.channels = s.channels ∧ t.zones = s.zones ∧
        t.doors = s.doors ∧ t.plan = s.plan ∧
        ∀ o, s.activeOrder e.slot = some o → e.slot < 64 → s.jWrite < 256 → Memory.wf s.mem = true →
          t.readByte (slotAt e.slot) = 3 ∧ t.readByte (slotAt e.slot + 2) = 0x17 ∧ t.readByte (flagAt e.slot) = 1)

/-- At a close. REPLY_LIMIT_EXPIRY: the frame of the tag, which awaits its reply since the fifth cycle before the one
that closes or an earlier one, is ended; its tag is returned and rests from this cycle; a transfer whose frame it was
ends. PAGE_TIMEOUT and PENDING_TIMEOUT: a PAGING station whose page was first requested 20 or more cycles before the one
that closes goes DOWN with cause PAGE TIMEOUT, a PENDING station that has been so for 40 goes DOWN with cause SILENCE;
its traffic and its transfer end, the link-down count and WAS DOWN change unless it was a re-enrolment (during an ENROL
too: the model's choice, log 52), and its numbered devices go with it: fans and doors UNREACHABLE, channels LOST (R39,
`stationWentDown`). That each row makes the first part of the close and leaves the rest to CYCLE_TIMER_EXPIRY is the
model's choice (log 6). -/
def Obligations.ReplyLimitAndStationTimeouts : Prop :=
  (∀ (s : State) (tag : Nat) (o : OutFrame) (take : CycleNo), s.quietClose → s.outFrame tag = some o →
    o.delivery = .awaiting take → 5 ≤ (s.ring.cycle - take).toNat →
    ∃ t, exec (.replyLimitExpiry tag) s = .next t ∧
      t.outFrame tag = none ∧ t.ring.outstanding.length < s.ring.outstanding.length ∧
      t.ring.resting = s.ring.resting ++ [(tag, s.ring.cycle)] ∧ t.ring.pool = s.ring.pool ∧
      t.ring.cycle = s.ring.cycle ∧ t.ring.phase = .closing ∧ t.ring.state = s.ring.state ∧
      t.ring.timer = s.ring.timer ∧ t.ring.lost = s.ring.lost ∧ t.clock = s.clock ∧ t.pending = s.pending ∧
      t.intake = s.intake ∧ (o.frame.origin = .param → t.param o.station = none)) ∧
  ∀ (s : State) (st : Nat) (r : Station), s.quietClose → s.station st = some r →
    let down (t : State) (cause : DownCause) : Prop := stationWentDown s t st r cause ∧ t.ring.phase = .closing
    (r.link = .paging → 20 ≤ (s.ring.cycle - r.pages.first).toNat →
      ∃ t, exec (.pageTimeout st) s = .next t ∧ down t .pageTimeout) ∧
    (∀ since, r.link = .pending → r.pendingSince = some since → 40 ≤ (s.ring.cycle - since).toNat →
      ∃ t, exec (.pendingTimeout st) s = .next t ∧ down t .silence)

/-- The ends of waits that fall at the opening of a cycle. TAG_REST_END: the opening has begun, and every tag whose rest
began 9 or more cycles before the cycle opened has joined the tail of the pool in the order of its return.
HELD_FRAME_EXPIRY: the frames of the station that are held for the 20th time are ended: its retries leave the table with
their tags at rest, and the frame at the head of its queue leaves it and is handed to its originator as NO DELIVERY (R10):
a page request is asked for again, a FAN STEP, a FAN RESET, a DOOR BEACON and a PARAM frame act on their fan, door or
transfer as such an ending does (`FanFrameEndingsMoveFan`, `DoorSignalSetsBeaconSource`, `ParamReplyGoesOnOrEnds`). How
the opening is divided among the rows is the model's choice (log 6). -/
def Obligations.TagRestAndHeldFrameEnds : Prop :=
  (∀ (s : State) (tag : Nat) (back : CycleNo), s.quietClose → (tag, back) ∈ s.ring.resting →
    9 ≤ (s.ring.cycle + 1 - back).toNat →
    ∃ t, exec (.tagRestEnd tag) s = .next t ∧
      t.ring.pool = s.ring.pool ++
        (s.ring.resting.filter fun x => decide (9 ≤ (s.ring.cycle + 1 - x.2).toNat)).map Prod.fst ∧
      tag ∈ t.ring.pool ∧ t.ring.cycle = s.ring.cycle + 1 ∧ t.ring.phase = .opening ∧
      t.ring.timer = some { start := s.clock, dur := s.ring.interval } ∧ t.clock = s.clock ∧
      t.pending = s.pending ∧ t.intake = s.intake) ∧
  ∀ (s : State) (st : Nat), s.ring.state ≠ .idle → s.ring.phase = .opening → (s.entry st).intake ≠ .open →
    (∀ f rest, (s.entry st).queue = f :: rest → 19 ≤ f.held → st ≠ 0 →
      (∀ o ∈ s.ring.outstanding, o.station = st → o.delivery = .retry → o.frame.held < 19) →
      let u := State.handled .ring { s with
        ring := { s.ring with entries := s.ring.entries.modify (st - 1) fun e => { e with queue := rest } } }
      let handed : State :=
        match f.origin with
        | .page => { u with stations := u.stations.modify (st - 1) fun r =>
            if r.link = .paging then { r with pages := { r.pages with offer := true } } else r }
        | .fanStep g start => u.fanStepEnded g start .noDelivery
        | .fanReset g => u.fanResetEnded g .noDelivery
        | .beacon d mode => u.beaconEnded d mode .noDelivery
        | .param => u.paramFailed st .noDelivery
        | .nobody => u
      ∃ t, exec (.heldFrameExpiry st) s = .next t ∧
        t = { handed with mem := t.mem, imageCounts := t.imageCounts, events := s.events } ∧
        (Memory.wf handed.mem = true → ∀ a, ¬imagePlace a → t.readByte a = handed.readByte a)) ∧
    (∀ o ∈ s.ring.outstanding, o.station = st → o.delivery = .retry → 19 ≤ o.frame.held →
      ∃ t, exec (.heldFrameExpiry st) s = .next t ∧
        t.outFrame o.tag = none ∧ (o.tag, s.ring.cycle) ∈ t.ring.resting ∧ t.ring.cycle = s.ring.cycle ∧
        t.ring.phase = .opening ∧ t.ring.pool = s.ring.pool ∧ t.clock = s.clock ∧ t.pending = s.pending)

/-- Heal and reclose (R56 to R58). HEAL_TIME_ELAPSED at a close in FOLDED: with the heal condition holding, the attempt
is due with the next cycle opened; with it failing, the heal start is absent. RECLOSE_ATTEMPT_EXPIRY at the close of
cycle r + 2: the ring is FOLDED again, the failure is counted and journalled, and the reclose cycle and the heal start are
absent. That
both rows make part of the close and leave the rest to CYCLE_TIMER_EXPIRY is the model's choice (log 6). The opening of a
cycle with the attempt due, whatever the signals are then (deduced, log 42), makes it the reclose cycle r: the ring is
RECLOSING and two trains are sent with STOP INSERT and RECLOSE set, the RECLOSE frame first in each; the later cycles of
the attempt send one train out of A, with STOP INSERT set. A side A train accepted at B-receive in RECLOSING closes the
ring: no fold cause, both sides LIVE, and no second train after this cycle; the counts stay, and so do the fold cycle and
the heal mark (deduced, log 42). -/
def Obligations.HealAndReclose : Prop :=
  ((∀ (s : State) (start : Clock), s.quietClose → s.ring.state = .folded → s.fold.healStart = some start →
    s.ring.healTime ≤ elapsed s.clock start →
    ∃ t, exec .healTimeElapsed s = .next t ∧
      t.ring.state = .folded ∧ t.ring.phase = .closing ∧ t.ring.cycle = s.ring.cycle ∧ t.clock = s.clock ∧
      t.stations = s.stations ∧ t.pending = s.pending ∧ t.fold.count = s.fold.count ∧
      t.fold.failures = s.fold.failures ∧ t.fold.cause = s.fold.cause ∧
      let holds := s.sigA = true ∧ s.sigB = true ∧
        ∀ r ∈ s.stations, r.link ≠ .down → r.turning = true → r.downstream = true ∧ r.upstream = true
      (holds → t.fold.recloseDue = true ∧ t.fold.healHeld = true ∧ t.fold.healStart = some start) ∧
      (¬holds → t.fold.recloseDue = false ∧ t.fold.healHeld = false ∧ t.fold.healStart = none)) ∧
  ∀ (s : State) (r : CycleNo), s.quietClose → s.ring.state = .reclosing → s.fold.reclosing = some r →
    s.ring.cycle = r + 2 →
    ∃ t, exec .recloseAttemptExpiry s = .next t ∧
      t.ring.state = .folded ∧ t.ring.phase = .closing ∧ t.ring.cycle = s.ring.cycle ∧ t.attn.getLsbD 4 = true ∧
      recorded s t .recloseFailed 0 s.ring.cycle.toNat 0 ∧
      t.fold.failures = min (s.fold.failures + 1) 65535 ∧ t.fold.count = s.fold.count ∧
      t.fold.cause = s.fold.cause ∧ t.fold.reclosing = none ∧ t.fold.healStart = none ∧
      t.fold.recloseDue = false ∧ t.stations = s.stations ∧ t.clock = s.clock ∧ t.pending = s.pending) ∧
  (∀ s : State, s.ring.state = .folded → s.ring.phase = .opening → s.fold.recloseDue = true → s.enrol = none →
    ∃ t xa xb, exec .cycleTimerExpiry s = .next t ∧
      t.ring.state = .reclosing ∧ t.ring.kind = .two ∧ t.ring.phase = .running ∧ t.ring.cycle = s.ring.cycle ∧
      t.fold = { s.fold with
        reclosing := some s.ring.cycle, healStart := none, recloseDue := false, framePtrB := t.fold.framePtrB,
        slotPtrB := t.fold.slotPtrB } ∧
      t.attn.getLsbD 4 = true ∧ t.ring.trainA = some xa ∧ t.ring.trainB = some xb ∧
      t.ring.txA = t.trainBytes .a true true xa ∧ t.ring.txB = t.trainBytes .b true true xb ∧
      (s.ring.trainWide = [] → xa.frames.head? = some (.wide .reclose) ∧ xb.frames.head? = some (.wide .reclose) ∧
        t.ring.trainWide = [])) ∧
  (∀ (s : State) (r : CycleNo), s.ring.state = .reclosing → s.ring.phase = .opening → s.fold.reclosing = some r →
    r ≠ s.ring.cycle → s.enrol = none →
    ∃ t x, exec .cycleTimerExpiry s = .next t ∧
      t.ring.state = .reclosing ∧ t.ring.kind = .recloseOne ∧ t.ring.trainA = some x ∧ t.ring.trainB = none ∧
      t.ring.txA = t.trainBytes .a true false x ∧ t.fold.reclosing = some r ∧ t.fold.runB = s.fold.runB) ∧
  (∀ s : State, s.ring.state = .reclosing →
    s.recloseSuccess = State.handled .ring (State.journal .ringClosed 0 s.ring.cycle.toNat 0 { s with
      attn := s.attn ||| 0x10,
      ring := { s.ring with state := .closed, kind := if s.ring.kind = .two then .closedTwo else .one },
      fold := { s.fold with
        cause := .none, runA := 0, runB := 0, deadA := false, deadB := false, framePtrB := 1, slotPtrB := 1,
        reclosing := none, healStart := none, recloseDue := false } })) ∧
  ∀ (s : State) (bytes : List Byte) (x : SentTrain), s.ring.state = .reclosing → s.ring.phase = .running →
    s.enrol = none → 0 < s.ring.opened → readHeader bytes = some { cycle := s.ring.cycle, side := .a } →
    s.ring.trainA = some x → x.accepted = false →
    ∃ t, exec (.trainArrival .b bytes) s = .next t ∧
      t.ring.state = .closed ∧ t.ring.kind = (if s.ring.kind = .two then .closedTwo else .one) ∧
      t.attn.getLsbD 4 = true ∧ t.ring.cycle = s.ring.cycle ∧ t.ring.timer = s.ring.timer ∧
      t.ring.trainA = some { x with accepted := true } ∧ t.clock = s.clock ∧ t.intake = s.intake ∧
      t.fold = { s.fold with
        cause := .none, runA := 0, runB := 0, deadA := false, deadB := false, framePtrB := 1, slotPtrB := 1,
        reclosing := none, healStart := none, recloseDue := false }

/-! ## Trains, frames, replies and heartbeats (chapters 1 to 3) -/

/-- The building of one train (R4, R10, R11, R19, R53, R54). Its command frames are, 12 at most, the train-wide frames
asked for, then the retries of the stations it serves that take frames, in table order, then heads of queues: pass by
pass from the station of the pointer on, one frame of each served station that takes frames, as long as places and tags
last; each is given the next tag of the pool and enters the table for its first try, and the pointer moves past the last
station served. A retry counts one more try. The 16 shared slots go pass by pass, from the slot pointer on, to the served
stations that are not DOWN and have pending replies left; the rest are assigned to ANY. Nothing else changes but the
marks of the fans and doors whose frames have left. -/
def Obligations.TrainPlacesFramesAndSlots : Prop :=
  ∀ (s : State) (two : Bool) (side : Port), s.shaped → s.tagsConserved →
    let t := s.buildTrain two side
    let n := s.stations.length
    let serves (st : Nat) : Bool := !two || ((s.station st).bind (·.heard)).any (·.1 == .b) == (side == .b)
    let open' (st : Nat) : Bool := (s.entry st).intake == .open
    let from' (first : Nat) : List Nat := ((List.range n).map fun i => (first - 1 + i) % n + 1).filter serves
    let framePtr := if side = .a then s.ring.framePtr else s.fold.framePtrB
    let slotPtr := if side = .a then s.ring.slotPtr else s.fold.slotPtrB
    let wide := s.ring.trainWide.take 12
    let retries := ((s.ring.outstanding.filter fun o =>
      o.delivery == .retry && serves o.station && open' o.station).take (12 - wide.length)).map (·.tag)
    let turns : List (Nat × QFrame) := (List.range 12).flatMap fun i =>
      (from' framePtr).filterMap fun st =>
        if open' st then ((s.entry st).queue[i]?).map fun q => (st, q) else none
    let placed := turns.take (min (12 - wide.length - retries.length) s.ring.pool.length)
    let tags := s.ring.pool.take placed.length
    let demand (st : Nat) : Nat :=
      if (s.station st).any (fun r => r.link != .down) then (s.entry st).replies else 0
    let slots := ((List.range 16).flatMap fun i => (from' slotPtr).filter fun st => decide (i < demand st)).take 16
    let after (ptr : Nat) (last : Option Nat) : Nat := match last with | none => ptr | some st => st % n + 1
    let newFrame := after framePtr (placed.getLast?.map Prod.fst)
    let newSlot := after slotPtr slots.getLast?
    t.ring.train side = some {
      frames := wide.map .wide ++ retries.map .queued ++ tags.map .queued,
      assign := slots ++ List.replicate (16 - slots.length) 0, accepted := false } ∧
    t = { s with
      ring := { s.ring with
        trainA := t.ring.trainA, trainB := t.ring.trainB, txA := t.ring.txA, txB := t.ring.txB,
        entries := t.ring.entries, pool := s.ring.pool.drop placed.length,
        outstanding := (s.ring.outstanding.map fun o =>
            if o.tag ∈ retries then
              { o with tries := o.tries + 1, lastSent := s.ring.cycle, delivery := .inTrain side } else o) ++
          (placed.zip tags).map fun x => {
            station := x.1.1, tag := x.2, frame := { x.1.2 with held := 0 }, mask := BitVec.ofNat 32 (2 ^ x.1.1),
            tries := 1, lastSent := s.ring.cycle, delivery := .inTrain side },
        framePtr := if side = .a then newFrame else s.ring.framePtr,
        slotPtr := if side = .a then newSlot else s.ring.slotPtr },
      fold := { s.fold with
        framePtrB := if side = .b then newFrame else s.fold.framePtrB,
        slotPtrB := if side = .b then newSlot else s.fold.slotPtrB },
      fans := t.fans, doors := t.doors, events := t.events } ∧
    (∀ st, t.entry st = { s.entry st with
      queue := (s.entry st).queue.drop (placed.countP fun x => x.1 == st) }) ∧
    (∀ f, t.fan f = (s.fan f).map fun r =>
      if placed.any fun x => match x.2.origin with | .fanStep g _ => g == f | _ => false then
        { r with stepFrame := .outstanding } else r) ∧
    (∀ d, t.door d = (s.door d).map fun r =>
      if placed.any fun x => match x.2.origin with | .beacon e _ => e == d | _ => false then
        { r with beacon := .outstanding } else r) ∧
    (side = .a → t.ring.trainB = s.ring.trainB ∧ t.ring.txB = s.ring.txB) ∧
    (side = .b → t.ring.trainA = s.ring.trainA ∧ t.ring.txA = s.ring.txA)

/-- The bytes of a train, part by part as R186 lays them out, each part with a check that is right: the header with the
cycle number, the side, STOP INSERT and RECLOSE flags and the 16 assigned stations; each command frame with its mask, kind,
class, tag, payload length and payload field, a queued frame ANSWERED with its tag and a train-wide one PLAIN with mask 0
and tag NONE; 24 heartbeat positions EMPTY; 16 reply slots FREE with their assigned station, their tag NONE (deduced,
log 31); and the trailer with the frame count and the cycle number; there is nothing else. So the header's cycle and side,
each frame's mask and payload field, and the empty positions and slots read back as they were put in. The train's queued
frames stand in the table with payloads of at most 16 bytes. -/
def Obligations.SentTrainReadsBack : Prop :=
  ∀ (s : State) (side : Port) (stop reclose : Bool) (x : SentTrain), x.assign.length = 16 →
    (∀ tag, SentFrame.queued tag ∈ x.frames → ∃ o, s.outFrame tag = some o ∧ o.frame.payload.length ≤ 16) →
    let bytes := s.trainBytes side stop reclose x
    let n := x.frames.length
    let kindCode (k : FrameKind) : Byte :=
      match k with
      | .clearAddress => 1
      | .takeAddress => 2
      | .pageRequest => 3
      | .fanStep => 4
      | .fanReset => 5
      | .doorBeacon => 6
      | .param => 7
      | .reclose => 8
    let field (p : List Byte) : List Byte := byte p.length :: padTo 16 p
    bytes.length = 21 + 26 * n + 16 * 24 + 24 * 16 + 5 ∧
    readPart bytes 0 21 = some
      (le16 s.ring.cycle.toNat ++
        [byte ((if side = .b then 1 else 0) + (if stop then 2 else 0) + (if reclose then 4 else 0))] ++
        x.assign.map byte) ∧
    (∀ i tag o, x.frames[i]? = some (.queued tag) → s.outFrame tag = some o →
      readPart bytes (21 + 26 * i) 26 = some
        (le32 o.mask.toNat ++ [kindCode o.frame.kind, 1, byte tag] ++ field o.frame.payload)) ∧
    (∀ i, x.frames[i]? = some (.wide .clearAddress) →
      readPart bytes (21 + 26 * i) 26 = some ([0, 0, 0, 0, 1, 0, 0xFF] ++ field [])) ∧
    (∀ i v probe, x.frames[i]? = some (.wide (.takeAddress v probe)) →
      readPart bytes (21 + 26 * i) 26 = some ([0, 0, 0, 0, 2, 0, 0xFF] ++ field [byte v, if probe then 1 else 0])) ∧
    (∀ i, x.frames[i]? = some (.wide .reclose) →
      readPart bytes (21 + 26 * i) 26 = some ([0, 0, 0, 0, 8, 0, 0xFF] ++ field [])) ∧
    (∀ k < 24, readPart bytes (21 + 26 * n + 16 * k) 16 = some (List.replicate 14 0)) ∧
    (∀ i < 16, readPart bytes (21 + 26 * n + 16 * 24 + 24 * i) 24 = some
      ([0, byte (x.assign.getD i 0), 0, 0, 0xFF] ++ List.replicate 17 0)) ∧
    readPart bytes (21 + 26 * n + 16 * 24 + 24 * 16) 5 = some (byte n :: le16 s.ring.cycle.toNat) ∧
    readHeader bytes = some { cycle := s.ring.cycle, side := side } ∧
    (∀ i tag o, x.frames[i]? = some (.queued tag) → s.outFrame tag = some o →
      readFrame bytes i = some (o.mask, padTo 16 o.frame.payload)) ∧
    (∀ i w, x.frames[i]? = some (.wide w) → readFrame bytes i = some (0, padTo 16 w.payload)) ∧
    (∀ k, 1 ≤ k → k ≤ 24 → (readPart bytes (beatOff n k) 16).map readBeat = some none) ∧
    ∀ i < 16, readSlot bytes n i = some none

/-- A frame of a side's train that comes back (R12, R13): read with no bit set it awaits its reply; with bits of its mask
still set it waits to be retried with those bits; unreadable, or with a bit outside its mask, it waits to be retried with
the mask unchanged; a failed third try ends it, and its tag goes to rest. That a queued frame is judged by its mask alone
is deduced (log 14). An entry that is not in that train, and a tag without an entry, is left. A shared reply slot that is
unreadable is charged to the station it was assigned to, and one assigned to an address without a record or to none to
the unattributed count (deduced, log 38); one that comes back FREE brings nothing (R14, R16); a reply whose tag is that
of an outstanding frame of its source that its kind answers ends the frame, and the tag goes to rest; any other reply but
SAMPLES is discarded and raises the error count of the station it names, or the unattributed count, and changes nothing
else. A frame that ends goes to its originator (R12, R14, R15): a matched reply with its kind, qualifier and payload, a
failed third try as NO DELIVERY, a reply limit that has run out as NO ANSWER; what a page, a FAN STEP or FAN RESET, a
DOOR BEACON and a PARAM frame then do is said of each (`PagesAreCheckedAndTaken`, `FanFrameEndingsMoveFan`,
`DoorSignalSetsBeaconSource`, `ParamReplyGoesOnOrEnds`), and a page that ends without reply is asked for again. That the
payload length of such a reply is not compared with its layout (log 107), and the qualifier of a BASE PAGE or BEACON ACK
not read (log 108), is the model's choice. -/
def Obligations.ReturnedFramesAndReplies : Prop :=
  (∀ (s : State) (tag : Nat) (side : Port) (back : Option (BitVec 32)) (o : OutFrame), s.outFrame tag = some o →
    let t := s.frameBack tag side back
    let put (g : OutFrame → OutFrame) : State := { s with
      ring := { s.ring with outstanding := s.ring.outstanding.map fun x => if x.tag = tag then g x else x } }
    let retried (mask : BitVec 32) : State :=
      put fun x => { x with mask := mask, delivery := .retry, frame := { x.frame with held := 0 } }
    (o.delivery ≠ .inTrain side → t = s) ∧
    (o.delivery = .inTrain side →
      (back = some 0 → t = put fun x => { x with delivery := .awaiting s.ring.cycle }) ∧
      (back ≠ some 0 → o.tries < 3 →
        t = retried (match back with
          | some m => if m &&& ~~~o.mask = 0 then m else o.mask
          | none => o.mask)) ∧
      (back ≠ some 0 → 3 ≤ o.tries →
        t.outFrame tag = none ∧ t.ring.resting = s.ring.resting ++ [(tag, s.ring.cycle)] ∧
        t.ring.pool = s.ring.pool ∧ t.ring.cycle = s.ring.cycle ∧ t.clock = s.clock ∧ t.intake = s.intake))) ∧
  (∀ (s : State) (r : Reply), ¬(r.tag = 0xFF ∧ r.kind = 5) →
    let matched := ∃ o, s.outFrame r.tag = some o ∧ o.station = r.source ∧ o.frame.kind.answeredBy r.kind = true
    let t := s.replyBack r
    (matched → t.outFrame r.tag = none ∧ (r.tag, s.ring.cycle) ∈ t.ring.resting ∧ t.ring.cycle = s.ring.cycle ∧
      t.clock = s.clock ∧ t.intake = s.intake) ∧
    (¬matched → s.station r.source = none →
      t = { s with ring := { s.ring with unattributed := min (s.ring.unattributed + 1) 65535 } }) ∧
    (∀ x, ¬matched → s.station r.source = some x →
      t = State.handled .ring
        { s with stations := s.stations.set (r.source - 1) { x with errors := min (x.errors + 1) 65535 } })) ∧
  (∀ (s : State) (r : Reply) (o : OutFrame), s.outFrame r.tag = some o → o.station = r.source →
    o.frame.kind.answeredBy r.kind = true →
    let u := s.endOutFrame r.tag
    let t := s.replyBack r
    (o.frame.origin = .page → t = (u.pageArrived o.station r.kind r.qualifier r.payload).handled .link) ∧
    (∀ f start, o.frame.origin = .fanStep f start → r.qualifier < 3 →
      t = (u.fanStepEnded f start (.reply r.qualifier)).handled .fans) ∧
    (∀ f, o.frame.origin = .fanReset f → r.qualifier < 2 →
      t = (u.fanResetEnded f (.reply r.qualifier)).handled .fans) ∧
    (∀ d mode, o.frame.origin = .beacon d mode → t = (u.beaconEnded d mode (.reply r.qualifier)).handled .doors) ∧
    (o.frame.origin = .nobody → t = u)) ∧
  (∀ (s : State) (tag : Nat) (o : OutFrame), s.outFrame tag = some o → o.station ≠ 0 →
    let u := s.endOutFrame tag
    let handed (t : State) (e : FrameEnding) (out : OrderOutcome) : Prop :=
      (o.frame.origin = .page → t = { u with
        stations := u.stations.modify (o.station - 1) fun r =>
          if r.link = .paging then { r with pages := { r.pages with offer := true } } else r }) ∧
      (∀ f start, o.frame.origin = .fanStep f start → t = (u.fanStepEnded f start e).handled .fans) ∧
      (∀ f, o.frame.origin = .fanReset f → t = (u.fanResetEnded f e).handled .fans) ∧
      (∀ d mode, o.frame.origin = .beacon d mode → t = (u.beaconEnded d mode e).handled .doors) ∧
      (o.frame.origin = .param → t = u.paramFailed o.station out) ∧
      (o.frame.origin = .nobody → t = u)
    (∀ side back, o.delivery = .inTrain side → back ≠ some 0 → 3 ≤ o.tries →
      handed (s.frameBack tag side back) .noDelivery .noDelivery) ∧
    ∀ take, o.delivery = .awaiting take → 5 ≤ (s.ring.cycle - take).toNat →
      handed (s.replyLimit tag) .noAnswer .noAnswer) ∧
  (∀ (s : State) (side : Port) (tag : Nat) (back : Option (BitVec 32 × List Byte)),
    s.placeBack side (.queued tag) back = s.frameBack tag side (back.map Prod.fst) ∧
    (s.outFrame tag = none → s.placeBack side (.queued tag) back = s)) ∧
  ∀ (s : State) (assigned : Nat) (slot : Option (Option Reply)),
    (slot = some none → s.slotBack assigned slot = s) ∧
    (∀ r, slot = some (some r) → s.slotBack assigned slot = s.replyBack r) ∧
    (∀ x, slot = none → s.station assigned = some x →
      s.slotBack assigned slot = State.handled .ring
        { s with stations := s.stations.set (assigned - 1) { x with errors := min (x.errors + 1) 65535 } }) ∧
    (slot = none → s.station assigned = none →
      s.slotBack assigned slot = { s with ring := { s.ring with unattributed := min (s.ring.unattributed + 1) 65535 } })

/-- What the heartbeat positions of an accepted train do to the link surveillance (R18, R37, R40, R52). A position that
brings no good heartbeat: while one train runs the station has missed the cycle, an unreadable one being charged to it as
well; the third miss in succession takes an UP station to SILENT, the 20th a PAGING, PENDING or SILENT one DOWN, with its
traffic and its numbered devices (R39, `stationWentDown`; that the counts of a re-enrolment that fails stay during an
ENROL too is the model's choice, log 52). While two trains run only the charge is made, and the first good heartbeat of
the cycle is used. A good heartbeat records intake state and pending count, clears the miss run and moves the link: the
fifth takes PENDING to UP with its adoption, UP and SILENT apply it when its entry counts agree with the base page and
otherwise go DOWN with cause MISMATCH (for SILENT the model's choice, log 51), and DOWN with cause SILENCE or PAGE
TIMEOUT begins a re-enrolment. That the entries act fans first, then doors, each by local index (log 101), and that the
heartbeat that takes SILENT to UP is applied before a numbering that it starts (log 96), is the model's choice. -/
def Obligations.HeartbeatPositionsMoveLink : Prop :=
  ∀ (s : State) (side : Port) (k : Nat),
    let put (u : State) (x : Station) : State := { u with stations := u.stations.set (k - 1) x }
    (s.station k = none → ∀ beat : Option (Option Heartbeat),
      s.beatTwo side k beat = s.beatOne side k beat ∧
      (beat = some none → s.beatOne side k beat = s) ∧
      (beat ≠ some none → s.beatOne side k beat =
        { s with ring := { s.ring with unattributed := min (s.ring.unattributed + 1) 65535 } })) ∧
    (∀ (r : Station) (unreadable : Bool), s.station k = some r →
      let charged : Station := { r with errors := if unreadable then min (r.errors + 1) 65535 else r.errors }
      let run := min (r.missRun + 1) 255
      let x : Station := { charged with missRun := run, goodRun := if r.link = .pending then 0 else r.goodRun }
      let beat : Option (Option Heartbeat) := if unreadable then none else some none
      let waits := r.link = .paging ∨ r.link = .pending ∨ r.link = .silent
      let t := s.beatOne side k beat
      let s0 : State := if unreadable then (put s charged).handled .ring else s
      s.beatTwo side k beat = s0 ∧
      (r.link = .up → 3 ≤ run →
        t = ((put s0 { x with link := .silent }).journal .stationSilent k 0 0).handled .link) ∧
      (waits → 20 ≤ run → stationWentDown s t k x .silence) ∧
      ((r.link = .up → run < 3) → (waits → run < 20) → t = (put s0 x).handled .link)) ∧
    ∀ (r : Station) (h : Heartbeat), s.station k = some r →
      let s1 : State := { s with ring := { s.ring with
        entries := s.ring.entries.modify (k - 1) fun e => { e with intake := h.intake, replies := h.replies } } }
      let seen : Station := { r with
        missRun := 0, heard := some (side, s.ring.cycle), downstream := h.downstream, upstream := h.upstream,
        turning := h.turning }
      let agrees := ∃ b, r.base = some b ∧ h.fanCount = b.fans ∧ h.doorCount = b.doors
      let applied (u : State) : State :=
        match r.description with
        | none => u
        | some d =>
          let v := (List.range (min d.fans.length h.fans.length)).foldl (fun v i =>
            let e := h.fans.getD i ({ step := 0, dir := .plus }, false, 0)
            (v.fanHeartbeat (d.firstFan + i) e.1 e.2.1 e.2.2).handled .fans) u
          (List.range (min d.doors.length h.doors.length)).foldl (fun v i =>
            (v.takeReported (d.firstDoor + i) (Reported.ofStation (h.doors.getD i 0)) false).handled .doors) v
      let turnsUp (t : State) : Prop := ∃ r', t.station k = some r' ∧ r'.link = .up ∧ r'.missRun = 0 ∧
        r'.heard = some (side, s.ring.cycle) ∧ r'.pendingSince = r.pendingSince ∧ r'.reEnrol = r.reEnrol
      let room : Bool := decide ((s.entry k).queue.length < 8)
      let t := s.beatOne side k (some (some h))
      (k ∈ s.ring.heard → s.beatTwo side k (some (some h)) = s) ∧
      (k ∉ s.ring.heard → s.beatTwo side k (some (some h)) =
        State.beatOne side k (some (some h)) { s with ring := { s.ring with heard := s.ring.heard ++ [k] } }) ∧
      (r.link = .paging → t = (put s1 seen).handled .link) ∧
      (r.link = .pending → r.goodRun < 4 → t = (put s1 { seen with goodRun := r.goodRun + 1 }).handled .link) ∧
      (r.link = .pending → 4 ≤ r.goodRun →
        t = (((put s1 { seen with goodRun := r.goodRun + 1, link := .up, pendingSince := none, reEnrol := false }).journal
          .stationUp k 0 0).adoptStation FanState.unreachable.code k).checkNumbering.handled .link ∧
        ∃ r', t.station k = some r' ∧ r'.link = .up ∧ r'.missRun = 0 ∧ r'.pendingSince = none ∧ r'.reEnrol = false) ∧
      (r.link = .up → agrees → t = (applied (put s1 seen)).handled .link ∧ turnsUp t) ∧
      (r.link = .silent → agrees →
        t = (applied ((put s1 { seen with link := .up }).journal .stationUp k 0 0)).checkNumbering.handled .link ∧
        turnsUp t) ∧
      (r.link = .up ∨ r.link = .silent → ¬agrees → stationWentDown s t k { r with missRun := 0 } .mismatch) ∧
      (r.link = .down → r.cause = .silence ∨ r.cause = .pageTimeout →
        t = { put s1 { r with
            missRun := 0, link := .paging, reEnrol := true,
            pages := { wanted := 0, first := s.ring.cycle, base := none, fans := [], channels := [], doors := [],
                       offer := !room } } with
          events := t.events,
          ring := if room then
              { s1.ring with entries := s1.ring.entries.modify (k - 1) fun e => { e with
                  queue := e.queue ++ [{ kind := .pageRequest, payload := [0], origin := .page, held := 0 }] } }
            else s1.ring }) ∧
      (r.link = .down → r.cause ≠ .silence → r.cause ≠ .pageTimeout →
        t = (put s1 { r with missRun := 0 }).handled .link)

/-! ## Enrolment (chapter 2) -/

/-- A train-wide frame of an ENROL that comes back (R7, R12, R26, R27, R57). CLEAR ADDRESS and RECLOSE bring nothing. A
TAKE ADDRESS that is readable, with no bit in its empty mask, and reads 1 to 25 gives addresses: 1 ends the ENROL OK with
no station, and v enrols v - 1 stations, each with its page 0 asked for, and with 25 asks for the probe. Otherwise the
attempt has failed: it is made again, and the third failure ends the ENROL NO DELIVERY with the ring IDLE, count 1 and an
empty body (deduced, log 11). A probe that comes back readable settles the question by its UNADDRESSED bit; one that does
not is asked for again, and the third settles it as excess. That only the value, the mask and the mark of the returned
frame are read is deduced (log 14). -/
def Obligations.AddressingGivesAddresses : Prop :=
  ∀ (s : State) (side : Port) (w : TrainWide) (back : Option (BitVec 32 × List Byte)) (e : EnrolContext),
    s.enrol = some e →
    let t := s.placeBack side (.wide w) back
    let ask (u : State) (ws : List TrainWide) : State :=
      { u with ring := { u.ring with trainWide := u.ring.trainWide ++ ws } }
    let readable (p : List Byte) : Prop := back = some (0, p)
    let unreadable := ∀ p, ¬readable p
    let failed := unreadable ∨ ∃ p, readable p ∧ (u8 p 0 = 0 ∨ 25 < u8 p 0)
    let ended (out : OrderOutcome) (count : Nat) (body : List Byte) : Prop :=
      t.enrol = none ∧ t.stations = [] ∧ t.activeOrder e.slot = none ∧
      ∀ o, s.activeOrder e.slot = some o → e.slot < 64 → Memory.wf s.mem = true →
        t.readByte (flagAt e.slot) = 1 ∧
        t.readBytes (slotAt e.slot) 64 = completedSlot o.copy out false s.clock count body ∧
        t.readBytes 0x10 4 = [0, 0, 0, 0]
    (w = .clearAddress ∨ w = .reclose → t = s.handled .link) ∧
    (∀ val, w = .takeAddress val false →
      (failed → e.failures < 2 →
        t = State.handled .link (ask { s with enrol := some { e with failures := e.failures + 1 } }
          [.clearAddress, .takeAddress 1 false])) ∧
      (failed → 2 ≤ e.failures →
        ended .noDelivery 1 [] ∧ t.ring.state = .idle ∧ t.ring.timer = none ∧ t.ring.pool = List.range 64) ∧
      (∀ p, readable p → u8 p 0 = 1 →
        ended .ok 1 [0, 0, 0, 0, 0, byte ((if e.excess then 1 else 0) + (if e.overCapacity then 2 else 0))] ∧
        t.ring.state = .closed) ∧
      (∀ p, readable p → 1 < u8 p 0 → u8 p 0 ≤ 25 → (∀ k, 1 ≤ k → k < u8 p 0 → (s.entry k).queue.length < 8) →
        let v := u8 p 0
        sameButEvents t (ask { s with
            stations := List.replicate (v - 1) (Station.created s.ring.cycle),
            enrol := some { e with addressed := true, probe := if v = 25 then .out 0 else .none },
            ring := { s.ring with entries := s.ring.entries.mapIdx fun i x =>
              if i < v - 1 then
                { x with queue := x.queue ++ [{ kind := .pageRequest, payload := [0], origin := .page, held := 0 }] }
              else x } }
          (if v = 25 then [.takeAddress 25 true] else [])))) ∧
    ∀ val, w = .takeAddress val true →
      (∀ p, readable p → t = State.handled .link (State.checkNumbering { s with
        enrol := some { e with probe := .settled, excess := u8 p 1 / 2 % 2 == 1 } })) ∧
      (∀ n, unreadable → e.probe = .out n → n < 2 →
        t = State.handled .link
          (ask { s with enrol := some { e with probe := .out (n + 1) } } [.takeAddress 25 true])) ∧
      (∀ n, unreadable → e.probe = .out n → 2 ≤ n →
        t = State.handled .link
          (State.checkNumbering { s with enrol := some { e with probe := .settled, excess := true } })) ∧
      (unreadable → (∀ n, e.probe ≠ .out n) → t = s.handled .link)

/-- A page of a PAGING station that has arrived (R28 to R31, R38, R41). It is checked against what is wanted and what
the base page says: a page that fails takes the station DOWN with cause PAGE FAULT. A page that passes is kept; while
pages are still to come the next is asked for, offered again when the queue is full; with the last the station is
PENDING, unless its pages differ from the description it was numbered with: then it goes DOWN with cause MISMATCH. A
re-enrolment keeps the base page held until its pages are complete. A station that is not PAGING takes no page. A
station that goes DOWN takes its numbered devices with it (R39, `stationWentDown`). A code that no list has is left
open (log 12). That MORE PAGES and the reversible mark are bit 0 of their bytes (log 37) and that an actual step or a
zero is taken as it stands (log 36) is deduced; that the counts of a re-enrolment that fails stay during an ENROL too
(log 52), and that neither the payload length nor the qualifier of a BASE PAGE is tested (logs 107, 108), is the
model's choice. -/
def Obligations.PagesAreCheckedAndTaken : Prop :=
  ∀ (s : State) (st kind qualifier : Nat) (p : List Byte) (r : Station), s.station st = some r →
    let t := s.pageArrived st kind qualifier p
    let w := r.pages.wanted
    let base : BasePage :=
      { kind := u8 p 0, fans := u8 p 1, channels := u8 p 2, doors := u8 p 3, lastParam := u8 p 4, chainage := u16 p 6 }
    let basePasses := w = 0 ∧ kind = 1 ∧ u8 p 1 ≤ 4 ∧ u8 p 2 ≤ 8 ∧ u8 p 3 ≤ 2 ∧
      (u8 p 5 % 2 = 1 ↔ 0 < u8 p 1 + u8 p 2 + u8 p 3)
    let isFan (b : BasePage) := w ≤ b.fans
    let isChannel (b : BasePage) := b.fans < w ∧ w ≤ b.fans + b.channels
    let isDoor (b : BasePage) := b.fans + b.channels < w
    let unitPasses (b : BasePage) : Prop :=
      w ≠ 0 ∧ r.pages.base = some b ∧ kind = 2 ∧ u8 p 0 = w ∧ (u8 p 1 % 2 = 1 ↔ w < b.fans + b.channels + b.doors) ∧
      (isFan b → qualifier = 0 ∧ 1 ≤ u8 p 4 ∧ u8 p 4 ≤ 8 ∧ u8 p 5 ≤ 3) ∧ (isChannel b → qualifier = 1) ∧
      (isDoor b → qualifier = 2 ∧
        (u8 p 4 = 0xFF ∨ ∃ g, r.pages.fans[u8 p 4]? = some g ∧ g.kind = .passage))
    let fanOf (g : FanPage) : Prop :=
      g.reversible = decide (u8 p 3 % 2 = 1) ∧ g.top = u8 p 4 ∧ g.feeder = u8 p 5 ∧ g.actual.step = u8 p 6 ∧
      g.runMinutes = u32 p 8 ∧ (u8 p 2 < 2 → g.kind.code = u8 p 2) ∧ (u8 p 7 < 2 → g.actual.dir.code = u8 p 7)
    let channelOf (c : ChannelPage) : Prop := c.zero = u16 p 3 ∧ c.gain = u16 p 5 ∧ (u8 p 2 < 4 → c.kind.code = u8 p 2)
    let doorOf (d : DoorPage) : Prop :=
      d.passage = (if u8 p 4 = 0xFF then none else some (u8 p 4)) ∧ (u8 p 2 < 2 → d.kind.code = u8 p 2) ∧
      (u8 p 3 = 1 ∨ u8 p 3 = 2 ∨ u8 p 3 = 3 ∨ u8 p 3 = 5 → d.state.code = u8 p 3)
    let room : Bool := decide ((s.entry st).queue.length < 8)
    let put (x : Station) : State := { s with stations := s.stations.set (st - 1) x }
    let goesOn (x : Exchange) : Prop :=
      ∃ b, x.base = some b ∧
        let early : Station := { r with pages := x, base := if r.reEnrol then r.base else some b }
        let complete : Station := { r with
          pages := x, base := some b, link := .pending, goodRun := 0, pendingSince := some s.ring.cycle }
        let agrees := ∀ d, r.description = some d →
          d.fans = x.fans.map (·.kind) ∧ d.channels = x.channels.map (·.kind) ∧ d.doors = x.doors.map (·.kind)
        (w < b.fans + b.channels + b.doors →
          t = { put { early with pages := { x with wanted := w + 1, first := s.ring.cycle, offer := !room } } with
            events := t.events,
            ring := if room then
                { s.ring with entries := s.ring.entries.modify (st - 1) fun e => { e with queue := e.queue ++
                    [{ kind := .pageRequest, payload := [byte (w + 1)], origin := .page, held := 0 }] } }
              else s.ring }) ∧
        (b.fans + b.channels + b.doors ≤ w → agrees → t = put complete) ∧
        (b.fans + b.channels + b.doors ≤ w → ¬agrees →
          stationWentDown s t st early .mismatch ∧ ∃ r', t.station st = some r' ∧ r'.mismatch = true)
    (r.link ≠ .paging → t = s) ∧
    (r.link = .paging → basePasses → goesOn { r.pages with base := some base }) ∧
    (∀ b, r.link = .paging → unitPasses b →
      (isFan b → ∃ g, fanOf g ∧ goesOn { r.pages with fans := r.pages.fans ++ [g] }) ∧
      (isChannel b → ∃ c, channelOf c ∧ goesOn { r.pages with channels := r.pages.channels ++ [c] }) ∧
      (isDoor b → ∃ d, doorOf d ∧ goesOn { r.pages with doors := r.pages.doors ++ [d] })) ∧
    (r.link = .paging → ¬basePasses → (∀ b, ¬unitPasses b) → stationWentDown s t st r .pageFault)

/-- Numbering (R32 to R35). While an ENROL waits for its addresses, its probe or a station, nothing happens; at the first
moment at which every station is UP or DOWN the fans, channels and doors of the UP stations are numbered in the order of
their stations, 48, 96 and 32 at most, each with the record of R33; a station of which a device is left over is marked
PARTIAL and the ENROL OVER CAPACITY; the devices are adopted, the counts shown, the ring is CLOSED, and the ENROL ends OK
with its result. Adoption (R34, R41): a fan's actual values are its page's, its commanded values those within its top
step and cap, its fault code, fault cause and not-ready count are cleared (the fault code of one adopted again: deduced,
log 26), and it is RUNNING, or STOPPED at step 0, and then acts on its target. -/
def Obligations.NumberingSeedsDevicesAndCloses : Prop :=
  (∀ s : State,
    (s.enrol = none ∨ (∃ e, s.enrol = some e ∧ (e.addressed = false ∨ ∃ n, e.probe = .out n)) ∨
      (∃ r ∈ s.stations, r.link ≠ .up ∧ r.link ≠ .down) → s.checkNumbering = s)) ∧
  (∀ (s : State) (e : EnrolContext), s.shaped → s.numbersSound → Memory.wf s.mem = true → s.enrol = some e →
    e.addressed = true → (∀ n, e.probe ≠ .out n) → (∀ r ∈ s.stations, r.link = .up ∨ r.link = .down) →
    let t := s.checkNumbering
    let n := s.stations.length
    let before (most : Nat) (size : Exchange → Nat) (j : Nat) : Nat :=
      min most (((s.stations.take j).filter fun r => r.link == .up).map fun r => size r.pages).sum
    let fans (j : Nat) : Nat := before 48 (fun x => x.fans.length) j
    let channels (j : Nat) : Nat := before 96 (fun x => x.channels.length) j
    let doors (j : Nat) : Nat := before 32 (fun x => x.doors.length) j
    let surplus (j : Nat) (r : Station) : Bool := r.link == .up &&
      decide (fans (j + 1) - fans j < r.pages.fans.length ∨ channels (j + 1) - channels j < r.pages.channels.length ∨
        doors (j + 1) - doors j < r.pages.doors.length)
    t.ring.state = .closed ∧ t.enrol = none ∧ t.stations.length = n ∧ t.ring.cycle = s.ring.cycle ∧
    t.clock = s.clock ∧ t.intake = s.intake ∧ t.pending = s.pending ∧ t.zones = s.zones ∧ t.plan = s.plan ∧
    t.readBytes 0x10 4 = [byte n, byte (fans n), byte (channels n), byte (doors n)] ∧
    (∀ o, s.activeOrder e.slot = some o → o.work = .enrol →
      t.activeOrder e.slot = none ∧ t.readByte (flagAt e.slot) = 1 ∧
      t.readBytes (slotAt e.slot) 64 = completedSlot o.copy .ok false s.clock 1
        [byte n, byte (s.stations.filter fun r => r.link == .up).length, byte (fans n), byte (channels n),
          byte (doors n),
          byte ((if e.excess then 1 else 0) +
            (if e.overCapacity || s.stations.zipIdx.any fun x => surplus x.2 x.1 then 2 else 0))]) ∧
    ∀ j r, s.stations[j]? = some r →
      let fs := r.pages.fans.take (fans (j + 1) - fans j)
      let cs := r.pages.channels.take (channels (j + 1) - channels j)
      let ds := r.pages.doors.take (doors (j + 1) - doors j)
      t.stations[j]? = some { r with
        partFlag := r.partFlag || surplus j r,
        description := some {
          firstFan := fans j, fans := fs.map (·.kind), firstChannel := channels j, channels := cs.map (·.kind),
          firstDoor := doors j, doors := ds.map (·.kind) } } ∧
      (∀ i p, fs[i]? = some p → ∃ g, t.fan (fans j + i) = some g ∧ g.station = j + 1 ∧ g.index = i ∧ g.kind = p.kind ∧
        g.reversible = p.reversible ∧ g.top = p.top ∧ g.feeder = p.feeder ∧ g.zone = none ∧ g.group = none ∧
        g.source = .auto ∧ g.cap = p.top ∧ g.actual = p.actual ∧ g.heard = false ∧ g.runMinutes = p.runMinutes ∧
        g.profile = { interval := 4, energize := 10, rundown := 120, dwell := 10 } ∧
        (p.kind = .jet → g.requested = { step := min p.actual.step p.top, dir := p.actual.dir } ∧
          g.commanded = g.requested ∧ g.doorReq = false ∧
          g.state = if 0 < min p.actual.step p.top then .running else .stopped)) ∧
      (∀ i p, cs[i]? = some p → t.channel (channels j + i) = some {
        station := j + 1, index := i, kind := p.kind, zero := p.zero, gain := if p.gain = 0 then 4096 else p.gain,
        shift := 3, under := 640, skip := true, stale := 5, acc := 0, value := 0, quality := .waiting, seedDue := true,
        clamped := false, lastFeed := s.clock, lastRaw := 0, zone := none, capture := none, armed := true }) ∧
      ∀ i p, ds[i]? = some p → ∃ beacon, t.door (doors j + i) = some {
        station := j + 1, index := i, kind := p.kind, zone := none, reported := p.state,
        state := match p.state with | .closed => .closed | .unlatched => .unlatched | .open => .open | .fault => .fault,
        holdLimit := 120, holdTimer := if p.state = .open then some { start := s.clock, dur := 120000 } else none,
        passage := p.passage.bind fun a => if a < fs.length then some (fans j + a) else none, passageStep := 4,
        runOn := 30, runOnTimer := none, smoke := false, caps := [], source := .auto, manualMode := .dark,
        confirmed := none, beacon := beacon, signal := none }) ∧
  ∀ (s : State) (f code : Nat) (p : FanPage) (r : Fan), s.fan f = some r → s.reachable r.station = true →
    let t := s.adoptFan f p code
    let cmd : Speed := { step := min p.actual.step (min r.top r.cap), dir := p.actual.dir }
    let target : Speed :=
      { step := min r.requested.step r.cap, dir := if r.reversible then r.requested.dir else p.actual.dir }
    let state : FanState :=
      if 0 < cmd.step then (if target = cmd then .running else .ramping)
      else if 0 < target.step ∧ p.actual.step = 0 then .queued
      else .stopped
    reactionFrame s t ∧ ∃ r', t.fan f = some r' ∧ r'.actual = p.actual ∧ r'.heard = false ∧ r'.faultCode = 0 ∧
      r'.cause = .none ∧ r'.notReady = 0 ∧ r'.requested = r.requested ∧ r'.source = r.source ∧ r'.cap = r.cap ∧
      r'.state = state ∧ recorded s t .fanState f code (if 0 < cmd.step then FanState.running.code else FanState.stopped.code) ∧ (state ≠ .queued → r'.commanded = cmd ∧ r'.slotHeld = false) ∧
      (state = .ramping → r'.timer = some { start := s.clock, dur := 500 * r.profile.interval })

/-! ## Channels and zones (chapters 4 and 5) -/

/-- SAMPLES (R62 to R69, R73, R77). A SAMPLES reply of a station that is not DOWN is handled entry by entry; one with 0
or more than 8 entries, or of another length than two bytes for each, is discarded whole and charged to the station; that
the source is tested first, then the length, and the index before the link state is deduced (log 22). An entry feeds the
numbered channel of its index: one whose index the base page does not have is charged, one of a station that is neither
UP nor SILENT or without a numbered channel there changes nothing. A sample is handled to its end: conversion, clamp,
judgement, filter and quality; while a capture runs a sample that is not suspect is gathered, and the eighth makes their
mean the new zero and completes the order with the new zero, the old zero, the lowest and the highest. A change of quality
into or out of GOOD is journalled (R72). -/
def Obligations.SampleFeedsChannel : Prop :=
  (∀ (s : State) (c raw : Nat) (marked : Bool) (r : Channel), s.channel c = some r → raw ≤ 4095 →
    let range : Int × Int := match r.kind with
      | .co => (0, 5000) | .no2 => (0, 2000) | .vis => (0, 500) | .airv => (-2000, 2000)
    let u : Int := (((raw : Int) - (r.zero : Int)) * (r.gain : Int)).fdiv 4096
    let v : Int := if u < range.1 then range.1 else if range.2 < u then range.2 else u
    let suspect : Bool := marked || decide (0 < r.under ∧ raw < r.under) || decide (raw = 4095)
    let acc : Int := if r.seedDue then 256 * v else r.acc + (256 * v - r.acc).fdiv (2 ^ r.shift)
    let quality : Quality := if suspect then .suspect else .good
    let fed : Channel :=
      if suspect && r.skip then { r with lastRaw := raw, quality := quality }
      else { r with
        lastRaw := raw, quality := quality, acc := acc, value := (acc + 128).fdiv 256, seedDue := false,
        clamped := decide (v ≠ u), lastFeed := s.clock, armed := true }
    let t := s.takeSample c raw marked
    reactionFrame s t ∧ t.intake = s.intake ∧
    (r.quality ≠ quality → r.quality = .good ∨ quality = .good →
      recorded s t .channelQuality c r.quality.code quality.code) ∧
    (suspect = true ∨ r.capture = none → t.channels = s.channels.set c (some fed)) ∧
    ∀ k, suspect = false → r.capture = some k →
      (k.count < 7 → t.channels = s.channels.set c (some { fed with
        capture := some { slot := k.slot, count := k.count + 1, sum := k.sum + raw, lowest := min k.lowest raw,
                          highest := max k.highest raw } })) ∧
      (7 ≤ k.count →
        t.channels = s.channels.set c (some { fed with
          zero := (k.sum + raw) / 8, seedDue := true, capture := none }) ∧
        t.activeOrder k.slot = none ∧
        ∀ o, s.activeOrder k.slot = some o → s.numbersSound → Memory.wf s.mem = true →
          t.readByte (flagAt k.slot) = 1 ∧
          t.readBytes (slotAt k.slot) 64 = completedSlot o.copy .ok false s.clock 1
            (le16 ((k.sum + raw) / 8) ++ le16 r.zero ++ le16 (min k.lowest raw) ++ le16 (max k.highest raw)))) ∧
  ∀ (s : State) (st count length : Nat) (payload : List Byte),
    let t := s.handleSamples st count length payload
    let charged : State :=
      match s.station st with
      | none => { s with ring := { s.ring with unattributed := min (s.ring.unattributed + 1) 65535 } }
      | some r => State.handled .ring
          { s with stations := s.stations.set (st - 1) { r with errors := min (r.errors + 1) 65535 } }
    let word (i : Nat) : Nat := u8 payload (2 * i) + 0x100 * u8 payload (2 * i + 1)
    (count = 0 ∨ 8 < count ∨ length ≠ 2 * count → t = charged) ∧
    (1 ≤ count → count ≤ 8 → length = 2 * count →
      t = (List.range count).foldl (fun u i => u.sampleEntry st (word i)) s) ∧
    (∀ (index raw : Nat) (marked : Bool) (r : Station), s.station st = some r → index < 8 → raw < 0x1000 →
      let u := s.sampleEntry st (raw + 0x1000 * index + if marked then 0x8000 else 0)
      let beyond := ∃ b, r.base = some b ∧ b.channels ≤ index
      (beyond → u = charged) ∧
      (¬beyond → r.link ≠ .up → r.link ≠ .silent → u = s) ∧
      (¬beyond → (∀ d, r.description = some d → d.channels.length ≤ index) → u = s) ∧
      (∀ d, ¬beyond → r.link = .up ∨ r.link = .silent → r.description = some d → index < d.channels.length →
        u = (s.takeSample (d.firstChannel + index) raw marked).handled .channels)) ∧
    ∀ rep : Reply, rep.tag = 0xFF → rep.kind = 5 → rep.source = st →
      (s.reachable st = true → s.replyBack rep = s.handleSamples st rep.qualifier rep.length rep.payload) ∧
      (s.reachable st = false → s.replyBack rep = charged)

/-- A kind of a zone aggregated anew over the usable members, which are the GOOD ones and the SUSPECT ones of channels
that do not skip: the largest value of a pollutant, the mean of AIRV truncated toward zero. Without a usable member a
PRESENT kind is HELD from now on with its value, or ABSENT at once when the hold time is 0, and another is left. A
grading: the level rises to the largest whose threshold the value reaches, and falls past a level only when the value
lies below its threshold less the hysteresis; a second grading with the same value changes nothing. The level of a kind is
0 when it is NONE, the fallback level when ABSENT, and otherwise the grade of its value; the tunnel level is the largest
level of a configured zone, 0 with none. STALE_EXPIRY: a
WAITING, GOOD or SUSPECT channel whose stale time has passed since its last feed, and whose expiry has not come before,
becomes STALE with the seed due; the other channels are left. ZONE_HOLD_EXPIRY: a HELD kind whose hold time has passed
becomes ABSENT with its value kept; a pollutant kind takes the fallback level, the smoke latch stays as it is, the zone
level and the tunnel level follow; the other kinds and zones and every channel are left. A change of a level, and a
quality that leaves GOOD, is journalled (R72, R92). An expiry whose moment has not
come changes nothing (the model's choice, log 5). -/
def Obligations.KindsAggregateGradeAndExpire : Prop :=
  (∀ (s : State) (hold : Nat) (k : ChKind) (z : ZoneKind),
    let usable (c : Nat) : Option Int := (s.channel c).bind fun r =>
      if r.quality = .good ∨ (r.quality = .suspect ∧ r.skip = false) then some r.value else none
    let vs := z.members.filterMap usable
    let n := s.aggregated hold k z
    n.members = z.members ∧ n.level = z.level ∧
    (vs ≠ [] → n.vstate = .present ∧ n.heldSince = none ∧
      (k ≠ .airv → n.value ∈ vs ∧ ∀ v ∈ vs, v ≤ n.value) ∧
      (k = .airv → n.value = vs.sum.tdiv vs.length)) ∧
    (vs = [] →
      (z.vstate ≠ .present → n = z) ∧
      (z.vstate = .present → 0 < hold → n = { z with vstate := .held, heldSince := some s.clock }) ∧
      (z.vstate = .present → hold = 0 → n = { z with vstate := .absent }))) ∧
  (∀ (x : Thresholds) (level : Nat) (v : Int), level ≤ 4 →
    let at' (l : Nat) : Int := if l = 1 then x.t1 else if l = 2 then x.t2 else if l = 3 then x.t3 else x.t4
    let n := x.grade level v
    n ≤ 4 ∧
    (∀ l, 1 ≤ l → l ≤ 4 → at' l ≤ v → l ≤ n) ∧
    (level < n → at' n ≤ v) ∧
    (1 ≤ n → at' n - x.h ≤ v) ∧
    (∀ l, n < l → l ≤ level → v < at' l - x.h) ∧
    x.grade n v = n) ∧
  (∀ (x : Thresholds) (fallback : Nat) (k : ZoneKind),
    (k.vstate = .none → gradedLevel x fallback k = 0) ∧
    (k.vstate = .absent → gradedLevel x fallback k = fallback) ∧
    (k.vstate = .present ∨ k.vstate = .held → gradedLevel x fallback k = x.grade k.level k.value)) ∧
  (∀ zones : List Zone,
    let m := tunnelLevelOf zones
    (∀ z ∈ zones, z.configured = true → z.level ≤ m) ∧
    (0 < m → ∃ z ∈ zones, z.configured = true ∧ z.level = m) ∧
    ((∀ z ∈ zones, z.configured = false) → m = 0)) ∧
  (∀ (s : State) (c : Nat) (r : Channel), s.channel c = some r →
    let live := r.quality = .waiting ∨ r.quality = .good ∨ r.quality = .suspect
    let due := r.armed = true ∧ live ∧ 1000 * r.stale ≤ elapsed s.clock r.lastFeed
    (due → ∃ t, exec (.staleExpiry c) s = .next t ∧ reactionFrame s t ∧ t.intake = s.intake ∧
      t.channels = s.channels.set c (some { r with quality := .stale, seedDue := true, armed := false }) ∧
      (r.quality = .good → recorded s t .channelQuality c Quality.good.code Quality.stale.code)) ∧
    (¬due → exec (.staleExpiry c) s = .next s)) ∧
  ∀ (s : State) (z : Nat) (k : ChKind),
    let z0 := s.zone z
    let due := (z0.kind k).vstate = .held ∧ ∃ x, (z0.kind k).heldSince = some x ∧ 1000 * z0.hold ≤ elapsed s.clock x
    let absent (i : ChKind) (y : ZoneKind) : ZoneKind :=
      if i = k then { y with
        vstate := .absent, heldSince := none, level := if k = .airv then y.level else z0.fallback } else y
    (due → ∃ t, exec (.zoneHoldExpiry z k) s = .next t ∧ reactionFrame s t ∧ t.intake = s.intake ∧
      t.channels = s.channels ∧ t.tunnelLevel = tunnelLevelOf t.zones ∧ (∀ m, m ≠ z → t.zone m = s.zone m) ∧
      t.zone z = { z0 with
        co := absent .co z0.co, no2 := absent .no2 z0.no2, vis := absent .vis z0.vis, airv := absent .airv z0.airv,
        level := max (absent .co z0.co).level (max (absent .no2 z0.no2).level (absent .vis z0.vis).level) } ∧
      ((t.zone z).level ≠ z0.level → recorded s t .zoneLevel z z0.level (t.zone z).level) ∧
      (t.tunnelLevel ≠ s.tunnelLevel → recorded s t .zoneLevel 16 s.tunnelLevel t.tunnelLevel)) ∧
    (¬due → exec (.zoneHoldExpiry z k) s = .next s)

/-- A channel's report to the zone evaluator (R73, R86, R90 to R93, R141, R150, R156, R158). A channel without a zone, and
one whose kind keeps its state and value, changes nothing. Otherwise the kind is graded, the zone level and the tunnel
level follow, and with VIS the smoke latch is judged: it sets at the smoke threshold, clears below it less the hysteresis,
and stays while the kind is ABSENT. A latch that sets or clears moves the smoke count, and in NORMAL the SMOKE HOLD with
it; one that sets leaves the smoke mark on every door of the zone in an open state, whose passage fan is brought to the
doors' request. In NORMAL a rise of the tunnel level, told before the latch (deduced, log 48), and the clearing
of SMOKE HOLD each start an evaluation: the plan timer restarts, and a rise without SMOKE HOLD before it, or the clearing
of it, selects the stage's count of the tunnel level now stored (`selectionMade`). A fall stores the level only. A changed
zone level, tunnel level and latch, and a smoke mark, are journalled with the values before and after, the VIS value and the
threshold, and the zone and the passage fan (R92, R93, R141). The other zones, every channel and every other door are left. -/
def Obligations.SmokeLatchMovesWithReport : Prop :=
  ∀ (s : State) (c : Nat) (r : Channel), s.channel c = some r → s.shaped →
    let t := s.reportChannel c
    (r.zone = none → t = s) ∧
    ∀ z, r.zone = some z → z < 16 →
      let z0 := s.zone z
      let k0 := z0.kind r.kind
      let k1 := s.aggregated z0.hold r.kind k0
      let same := k1.vstate = k0.vstate ∧ k1.value = k0.value
      let graded (k : ChKind) (x : Thresholds) (y : ZoneKind) : ZoneKind :=
        if k = r.kind then { k1 with level := gradedLevel x z0.fallback k1 } else y
      let co := graded .co z0.coT z0.co
      let no2 := graded .no2 z0.no2T z0.no2
      let vis := graded .vis z0.visT z0.vis
      let latch : Bool :=
        if r.kind ≠ .vis ∨ k1.vstate = .absent then z0.latch
        else if k1.vstate = .none then false
        else if (z0.smoke : Int) ≤ k1.value then true
        else if k1.value < (z0.smoke : Int) - z0.visT.h then false
        else z0.latch
      let marks (d : Door) : Prop := d.zone = some z ∧ d.state ≠ .none ∧ d.state ≠ .closed ∧ d.smoke = false
      (same → t = s) ∧
      (¬same →
        reactionFrame s t ∧ t.intake = s.intake ∧ t.channels = s.channels ∧ t.tunnelLevel = tunnelLevelOf t.zones ∧
        (∀ m, m ≠ z → t.zone m = s.zone m) ∧
        t.zone z = { z0 with
          co := co, no2 := no2, vis := vis, airv := if r.kind = .airv then k1 else z0.airv,
          level := max co.level (max no2.level vis.level), latch := latch } ∧
        ((t.zone z).level ≠ z0.level → recorded s t .zoneLevel z z0.level (t.zone z).level) ∧
        (t.tunnelLevel ≠ s.tunnelLevel → recorded s t .zoneLevel 16 s.tunnelLevel t.tunnelLevel) ∧
        (latch ≠ z0.latch →
          recorded s t (if latch then .smokeOn else .smokeOff) z (vis.value % 0x10000).toNat z0.smoke) ∧
        (let count :=
          if latch = z0.latch then s.plan.smokeCount
          else if latch then s.plan.smokeCount + 1 else s.plan.smokeCount - 1
        let hold : Bool :=
          if latch ≠ z0.latch ∧ s.plan.regime = .normal then decide (0 < count) else s.plan.smokeHold
        let rises := t.tunnelLevel ≠ s.tunnelLevel ∧ s.plan.tunnel < t.tunnelLevel ∧ s.plan.regime = .normal
        let lifts := s.plan.smokeHold = true ∧ hold = false
        let selects := (rises ∧ s.plan.smokeHold = false) ∨ lifts
        t.plan = { s.plan with
          tunnel := if t.tunnelLevel = s.tunnelLevel then s.plan.tunnel else t.tunnelLevel,
          smokeCount := count, smokeHold := hold,
          planTimer :=
            if rises ∨ lifts then some { start := s.clock, dur := 1000 * s.plan.planInterval } else s.plan.planTimer,
          picked := t.plan.picked, candidates := t.plan.candidates, kept := t.plan.kept } ∧
        (selects → selectionMade s t (s.plan.stages.getD t.plan.tunnel 0)) ∧
        (¬selects →
          t.plan.picked = s.plan.picked ∧ t.plan.candidates = s.plan.candidates ∧ t.plan.kept = s.plan.kept ∧
          (latch = false ∨ z0.latch = true → t.fans = s.fans ∧ t.feeders = s.feeders))) ∧
        (latch = false ∨ z0.latch = true → t.doors = s.doors ∧ t.passageWritten = s.passageWritten) ∧
        (latch = true → z0.latch = false →
          (∀ n d, s.door n = some d →
            (marks d →
              t.door n = some { d with smoke := true } ∧ recorded s t .smokeAtDoor n z (d.passage.getD 0xFF)) ∧
            (¬marks d → t.door n = some d)) ∧
          ∀ n d f g, s.door n = some d → marks d → d.passage = some f → s.fan f = some g → passageFollows s t f g))

/-! ## Fans (chapters 6 and 7) -/

/-- A numbered fan's entry of an applied heartbeat (R102, R103, R105 to R108): the actual values, the standstill flag
and the fault code are stored; a fault code takes a fan that is not LOCKED OUT or UNREACHABLE to FAULT with cause
DRIVE FAULT, commanded step 0, its slot given back and a FAN RUN or FAN STOP part ended DRIVE FAULT (R116); otherwise
a STOPPED fan at standstill with a target is QUEUED, a starting fan that turns the commanded way is RAMPING or at its
target RUNNING, a RAMPING fan that has reached its target RUNNING, and a fan RUNNING DOWN that has come to rest
STOPPED, QUEUED again, or in its REVERSE DWELL. A FAN RUN part ends OK or OK CLAMPED at RUNNING and a FAN STOP part OK
at STOPPED (R114, R115, `partEnds`), with its order when that was the last open part (`partEnded`, R120); for a FAN
HOME part that waits for rest, a fan come to rest, or in FAULT and at standstill, has FAN RESET offered (R117). At
rest a FAN LOCKOUT part takes the fan to LOCKED OUT and ends OK (R118), and after RESET ACK DONE the entry ends a FAN
HOME part, OK or with a fault code DRIVE FAULT (R117): with no fault code the fan is STOPPED, and commanded step 0,
without a slot, whatever it has been set to do since (deduced, log 84); that both waits are judged before the state
acts on the entry, on which a fan made STOPPED then acts, is the model's choice (log 105). An entry into RUNNING,
STOPPED, FAULT or LOCKED OUT is journalled with the states before and after (R122). The station of the fan can be
reached, and a fan that holds its slot waits in no list of its feeder. -/
def Obligations.FanEntryOfHeartbeat : Prop :=
  ∀ (s : State) (f : Nat) (actual : Speed) (rest : Bool) (code : Nat) (r : Fan), s.fan f = some r →
    s.reachable r.station = true →
    (r.slotHeld = true → f ∉ (s.feeder r.feeder).class1 ∧ f ∉ (s.feeder r.feeder).class0) →
    let t := s.fanHeartbeat f actual rest code
    let away := r.state = .lockedOut ∨ r.state = .unreachable
    let faults := code ≠ 0 ∧ r.state ≠ .fault ∧ ¬away
    let judging := ∃ p, r.part = some p ∧ p.work = .home .judging
    let locking := (∃ p, r.part = some p ∧ p.work = .lockout) ∧ rest = true
    let target : Speed :=
      { step := min r.requested.step r.cap, dir := if r.reversible then r.requested.dir else r.commanded.dir }
    let there := r.commanded = target ∧ 0 < target.step ∧ actual = target
    let starts := (r.state = .queued ∧ r.slotHeld = true) ∨ r.state = .energizing
    let turns := starts ∧ 1 ≤ actual.step ∧ actual.dir = r.commanded.dir
    let atRest : FanState := if 0 < target.step then .queued else .stopped
    let next : FanState :=
      if faults then .fault
      else if turns ∨ r.state = .ramping then (if there then .running else .ramping)
      else if rest = true ∧ r.state = .stopped then atRest
      else if rest = true ∧ r.state = .runningDown then
        (if r.reversal = true ∧ 0 < r.profile.dwell then .reverseDwell else atRest)
      else r.state
    reactionFrame s t ∧ t.intake = s.intake ∧ t.channels = s.channels ∧ t.zones = s.zones ∧ t.doors = s.doors ∧
    t.plan = s.plan ∧
    ∃ r', t.fan f = some r' ∧ r'.actual = actual ∧ r'.standstill = rest ∧ r'.faultCode = code ∧ r'.heard = true ∧
      r'.requested = r.requested ∧ r'.source = r.source ∧ r'.cap = r.cap ∧ r'.zone = r.zone ∧ r'.group = r.group ∧
      r'.profile = r.profile ∧ r'.runMinutes = r.runMinutes ∧ r'.runSeconds = r.runSeconds ∧
      (¬judging → ¬locking →
        r'.state = next ∧
        (faults → r'.cause = .driveFault ∧ r'.commanded = { r.commanded with step := 0 } ∧ r'.slotHeld = false ∧
          r'.reversal = false ∧ r'.timer = none ∧ fanRecorded s t f r.state .fault .driveFault) ∧
        (∀ p, r.part = some p →
          let out : Option OrderOutcome :=
            if faults then
              (match p.work with
                | .run _ => some .driveFault
                | .stop => some .driveFault
                | .home _ => none
                | .lockout => none)
            else partEnds next r.commanded target r.reversible r.cap p.work
          let home := p.work = .home .waiting ∧ (next = .stopped ∨ (next = .fault ∧ rest = true))
          (∀ o, out = some o → r'.part = none ∧ partEnded s t f p.slot o) ∧
          (out = none → ¬home → r'.part = some p) ∧
          (home → s.shaped → resetOffered t f p.slot r)) ∧
        (next = .running → r.state ≠ .running → fanRecorded s t f .ramping .running .none) ∧
        (¬faults → r.state = .runningDown → rest = true → next ≠ .reverseDwell →
          fanRecorded s t f (if r.reversal then .reverseDwell else .runningDown) .stopped .none) ∧
        (¬faults → r'.cause = r.cause ∧ (next ≠ .queued → r'.commanded = r.commanded)) ∧
        (¬faults → turns → r'.slotHeld = false ∧ r'.notReady = 0) ∧
        (¬faults → turns → ¬there → r'.timer = some { start := s.clock, dur := 500 * r.profile.interval }) ∧
        (next = .reverseDwell → r.state = .runningDown →
          r'.timer = some { start := s.clock, dur := 1000 * r.profile.dwell }) ∧
        (r.slotHeld = false → next = r.state ∨ next ≠ .queued → ∀ g, g ≠ f → t.fan g = s.fan g)) ∧
      (locking → r.commanded.step = 0 →
        r.state = .runningDown ∨ r.state = .reverseDwell ∨ r.state = .stopped ∨ r.state = .fault →
        r'.state = .lockedOut ∧ r'.part = none ∧ r'.timer = none ∧ r'.reversal = false ∧
        (∀ p, r.part = some p → partEnded s t f p.slot .ok) ∧
        fanRecorded s t f (if faults then .fault else r.state) .lockedOut .none) ∧
      (judging → code = 0 → r'.state = (if rest then atRest else .stopped) ∧ r'.cause = .none ∧ r'.part = none ∧
        r'.notReady = 0 ∧ r'.reversal = false ∧ (∀ p, r.part = some p → partEnded s t f p.slot .ok) ∧
        (r.state ≠ .stopped → fanRecorded s t f r.state .stopped .none) ∧
        (rest = false ∨ target.step = 0 →
          r'.commanded = { r.commanded with step := 0 } ∧ r'.slotHeld = false ∧ r'.timer = none ∧
          (r.slotHeld = true → t.feeders = (s.giveBack f).feeders))) ∧
      (judging → code ≠ 0 → ¬away → r'.state = .fault ∧ r'.cause = .driveFault ∧ r'.part = none ∧
        (∀ p, r.part = some p → partEnded s t f p.slot .driveFault) ∧
        (r.state ≠ .fault → fanRecorded s t f r.state .fault .driveFault))

/-- A FAN STEP or FAN RESET that has ended, handed to its fan (R101, R104, R117, R127, R128). STEP ACK ACCEPTED takes a
fan whose start frame it answers to ENERGIZING, its timer running on, and otherwise changes nothing. STEP ACK NOT READY
gives the slot of such a fan back and counts: its FAN STEP at step 0 is offered, it asks again at the tail of its class,
and the grants follow (`GrantsTakeWaitingFans`); the third takes it to FAULT with cause NOT READY, the grants before its
FAN STEP (which of the two comes first is the model's choice, log 88). For any other frame, and at NO DELIVERY and NO
ANSWER, the last-sent values become UNKNOWN and the fan stays as it is (of a NOT READY to a fan no longer in its start:
deduced, log 25). STEP ACK REFUSED takes a fan that is not in FAULT or UNREACHABLE to FAULT with cause DRIVE FAULT,
commanded step 0, without a slot, a FAN RUN or FAN STOP part ended; one in FAULT keeps its cause (deduced, log 25). Each
time the commanded values that differ from the last-sent ones are offered in a FAN STEP, which waits when the queue is
full. RESET ACK DONE takes a FAN HOME part that waits for it to the judgement by the next heartbeat; REFUSED leaves the
fan in FAULT with cause DRIVE FAULT (an UNREACHABLE fan as it is) and ends the part DRIVE FAULT; NO DELIVERY and NO ANSWER
end it so, the fan as it is; with no such part nothing happens (R119). The station of the fan can be reached, no unsent
FAN STEP of it stands in the queue, and at STEP ACK REFUSED a fan that holds its slot waits in no list. -/
def Obligations.FanFrameEndingsMoveFan : Prop :=
  (∀ (s : State) (f : Nat) (start : Bool) (e : FrameEnding) (r : Fan), s.fan f = some r →
    s.reachable r.station = true → s.shaped →
    (∀ q ∈ (s.entry r.station).queue, ∀ g st, q.origin = .fanStep g st → g ≠ f) →
    let t := s.fanStepEnded f start e
    let phase := start = true ∧ r.state = .queued ∧ r.slotHeld = true
    let fixed := r.state = .fault ∨ r.state = .unreachable
    let rest : Speed := { r.commanded with step := 0 }
    let runs (p : ActivePart) := p.work = .stop ∨ ∃ v, p.work = .run v
    let sent (last : Option Speed) (r' : Fan) : Prop :=
      let frame : QFrame :=
        { kind := .fanStep, payload := [byte r.index, byte r'.commanded.dir.code, byte r'.commanded.step],
          origin := .fanStep f (r'.state == .queued && r'.slotHeld && r'.commanded.step == 1), held := 0 }
      if r'.state = .unreachable ∨ last = some r'.commanded then r'.lastSent = last ∧ r'.stepFrame = .none
      else
        (r'.lastSent = some r'.commanded ∧ r'.stepFrame = .queued ∧ frame ∈ (t.entry r.station).queue) ∨
          (r'.lastSent = last ∧ r'.stepFrame = .none ∧ 8 ≤ (t.entry r.station).queue.length)
    reactionFrame s t ∧ t.intake = s.intake ∧ t.channels = s.channels ∧ t.zones = s.zones ∧ t.doors = s.doors ∧
    t.plan = s.plan ∧
    ∃ r', t.fan f = some r' ∧ r'.requested = r.requested ∧ r'.source = r.source ∧ r'.cap = r.cap ∧
      r'.actual = r.actual ∧ r'.faultCode = r.faultCode ∧ r'.profile = r.profile ∧
      (let stays (state : FanState) (last : Option Speed) : Prop :=
        r'.state = state ∧ r'.commanded = r.commanded ∧ r'.slotHeld = r.slotHeld ∧ r'.cause = r.cause ∧
        r'.notReady = r.notReady ∧ (r.state ≠ .fault → r'.timer = r.timer) ∧ sent last r' ∧
        t.feeders = s.feeders ∧ ∀ g, g ≠ f → t.fan g = s.fan g
      (e = .reply 0 → stays (if phase then .energizing else r.state) r.lastSent) ∧
      (e = .reply 1 → ¬phase → stays r.state none) ∧
      (e = .noDelivery ∨ e = .noAnswer → stays r.state none)) ∧
      (e = .reply 1 → phase → r.notReady < 2 →
        r'.state = .queued ∧ r'.notReady = r.notReady + 1 ∧ r'.cause = r.cause ∧ sent none r' ∧
        let k := slotReturned (s.feeder r.feeder) f
        let asks : Feeder :=
          if f ∈ k.energizing ++ k.waiting then k
          else if r.kind = .passage ∧ r.source = .auto ∧ r.doorReq = true then { k with class1 := k.class1 ++ [f] }
          else { k with class0 := k.class0 ++ [f] }
        let room : Bool := decide ((s.entry r.station).queue.length < 8)
        let asked : State := { s with
          fans := s.fans.set f (some { r with
            commanded := rest, slotHeld := false, timer := none, notReady := r.notReady + 1,
            lastSent := if room then some rest else none, stepFrame := if room then .queued else .none }),
          feeders := s.feeders.set r.feeder asks,
          ring := if room then
              { s.ring with entries := s.ring.entries.modify (r.station - 1) fun x => { x with
                  queue := x.queue ++ [{ kind := .fanStep, payload := [byte r.index, byte r.commanded.dir.code, 0],
                                         origin := .fanStep f false, held := 0 }] } }
            else s.ring }
        sameButEvents t (asked.grants r.feeder)) ∧
      (e = .reply 1 → phase → 2 ≤ r.notReady →
        r'.state = .fault ∧ r'.cause = .notReady ∧ r'.notReady = r.notReady + 1 ∧ r'.commanded = rest ∧
        r'.slotHeld = false ∧ r'.timer = none ∧ sent none r' ∧ fanRecorded s t f .queued .fault .notReady ∧
        (∀ p, r.part = some p → runs p → r'.part = none ∧ partEnded s t f p.slot .notReady) ∧
        let k := slotReturned (s.feeder r.feeder) f
        let given := State.grants r.feeder { s with
          fans := s.fans.set f (some { r with state := .fault, slotHeld := false }),
          feeders := s.feeders.set r.feeder { k with class1 := k.class1.erase f, class0 := k.class0.erase f } }
        t.feeders = given.feeders ∧ ∀ g, g ≠ f → t.fan g = given.fan g) ∧
      (e = .reply 2 → fixed → r'.state = r.state ∧ r'.commanded = r.commanded ∧ r'.cause = r.cause ∧
        sent r.lastSent r') ∧
      (e = .reply 2 → ¬fixed → (r.slotHeld = true → f ∉ (s.feeder r.feeder).waiting) →
        r'.state = .fault ∧ r'.cause = .driveFault ∧ r'.commanded = rest ∧ r'.slotHeld = false ∧ r'.timer = none ∧
        r'.reversal = false ∧ sent r.lastSent r' ∧ fanRecorded s t f r.state .fault .driveFault ∧
        ∀ p, r.part = some p → runs p → r'.part = none ∧ partEnded s t f p.slot .driveFault)) ∧
  ∀ (s : State) (f : Nat) (e : FrameEnding) (r : Fan), s.fan f = some r → s.reachable r.station = true →
    let t := s.fanResetEnded f e
    let ended (out : OrderOutcome) : Prop :=
      ∀ p o clamped, r.part = some p → p.slot < 64 → Memory.wf s.mem = true → s.jWrite < 256 →
        s.activeOrder p.slot = some o → o.work = .fans [{ fan := f, outcome := none }] clamped →
        t.activeOrder p.slot = none ∧ t.readByte (flagAt p.slot) = 1 ∧
        t.readBytes (slotAt p.slot) 64 = completedSlot o.copy out clamped s.clock 1 [1, 0, byte f, byte out.code]
    let resetting := ∃ p, r.part = some p ∧ p.work = .home .resetting
    (¬resetting → t = s) ∧
    (∀ slot, r.part = some { slot := slot, work := .home .resetting } → e = .reply 0 →
      t = { s with fans := s.fans.set f (some { r with part := some { slot := slot, work := .home .judging } }) }) ∧
    (resetting → e = .reply 1 → reactionFrame s t ∧ ended .driveFault ∧
      ∃ r', t.fan f = some r' ∧ r'.part = none ∧ r'.cause = .driveFault ∧ r'.requested = r.requested ∧
        (r.state = .unreachable → r'.state = .unreachable) ∧
        (r.state ≠ .unreachable → r'.state = .fault) ∧
        (r.state ≠ .fault → r.state ≠ .unreachable → fanRecorded s t f r.state .fault .driveFault) ∧
        (r.state ≠ .fault → r.state ≠ .unreachable → r'.commanded = { r.commanded with step := 0 })) ∧
    ∀ out, (e = .noDelivery ∧ out = OrderOutcome.noDelivery) ∨ (e = .noAnswer ∧ out = OrderOutcome.noAnswer) →
      resetting → reactionFrame s t ∧ ended out ∧ t.feeders = s.feeders ∧
        t.fans = s.fans.set f (some { r with part := none, timer := if r.state = .fault then none else r.timer })

/-- STEP_INTERVAL_EXPIRY of a RAMPING fan: the commanded step goes one step toward the target, or toward 0 while the
target has the other direction; at 0 the fan is RUNNING DOWN with its limit started; equal to the target and to the
actual values it is RUNNING, as FAN STATE records (R122), which ends a FAN RUN part OK, or OK CLAMPED when the target
is less than it asked for, with its order when that was the last open part (R114, R120, `partEnded`); otherwise it
goes on RAMPING with the interval restarted. Commanded values that differ from those last sent are offered in one FAN
STEP, which takes the place of one still queued, there held at no opening yet (held 0: deduced, log 46), and waits for
room or for one outstanding (R8, R101). With a station that cannot be reached the offer makes the fan UNREACHABLE and
ends its part so (R111). Every other fan is left. That values which a full queue has refused before are offered here
too, before the next opening, is the model's choice (log 100). An expiry whose moment has not come changes nothing
(the model's choice, log 5; that the interval restarts at each expiry: deduced, log 24). -/
def Obligations.StepIntervalExpiryRamps : Prop :=
  ∀ (s : State) (f : Nat) (r : Fan), s.fan f = some r →
    let due := r.state = .ramping ∧ timerDue s.clock r.timer = true
    let dir := if r.reversible then r.requested.dir else r.commanded.dir
    let goal := if dir = r.commanded.dir then min r.requested.step r.cap else 0
    let step :=
      if r.commanded.step < goal then r.commanded.step + 1
      else if goal < r.commanded.step then r.commanded.step - 1
      else r.commanded.step
    let there := dir = r.commanded.dir ∧ step = goal ∧ r.actual = { r.commanded with step := step }
    (due → s.reachable r.station = true →
      ∃ t lastSent stepFrame, ∃ part : Option ActivePart, exec (.stepIntervalExpiry f) s = .next t ∧ reactionFrame s t ∧
        t.intake = s.intake ∧ t.channels = s.channels ∧ t.zones = s.zones ∧ t.doors = s.doors ∧ t.plan = s.plan ∧
        t.feeders = s.feeders ∧
        t.fans = s.fans.set f (some { r with
          commanded := { r.commanded with step := step },
          state := if step = 0 then .runningDown else if there then .running else .ramping,
          timer :=
            if step = 0 then some { start := s.clock, dur := 1000 * r.profile.rundown }
            else if there then none
            else some { start := s.clock, dur := 500 * r.profile.interval },
          reversal := if step ≠ 0 ∧ there then false else r.reversal,
          lastSent := lastSent, stepFrame := stepFrame, part := part }) ∧
        part = (match r.part with
          | some { work := .run _, .. } => if step ≠ 0 ∧ there then none else r.part
          | _ => r.part) ∧
        (∀ slot want, r.part = some { slot := slot, work := .run want } → step ≠ 0 → there →
          partEnded s t f slot
            (if goal < want.step ∨ (r.reversible = false ∧ dir ≠ want.dir) then .okClamped else .ok)) ∧
        (step ≠ 0 → there → fanRecorded s t f .ramping .running .none) ∧
        let cmd : Speed := { r.commanded with step := step }
        let frame : QFrame :=
          { kind := .fanStep, payload := [byte r.index, byte r.commanded.dir.code, byte step],
            origin := .fanStep f false, held := 0 }
        let before := (s.entry r.station).queue
        let after := (t.entry r.station).queue
        let mine (q : QFrame) : Prop := ∃ start, q.origin = .fanStep f start
        let offers := r.lastSent ≠ some cmd ∧ r.stepFrame ≠ .outstanding
        let unsent := ∃ q ∈ before, mine q
        (¬offers → lastSent = r.lastSent ∧ stepFrame = r.stepFrame ∧ after.length = before.length) ∧
        (offers → ¬unsent → r.stepFrame = .queued →
          lastSent = r.lastSent ∧ stepFrame = .outstanding ∧ after.length = before.length) ∧
        (offers → ¬unsent → r.stepFrame = .none → 8 ≤ before.length →
          lastSent = r.lastSent ∧ stepFrame = .none ∧ after.length = before.length) ∧
        (s.shaped → offers → unsent ∨ (r.stepFrame = .none ∧ before.length < 8) →
          lastSent = some cmd ∧ stepFrame = .queued ∧ frame ∈ after ∧ (∀ q ∈ after, mine q → q = frame) ∧
          (unsent → after.length = before.length) ∧ (¬unsent → after.length = before.length + 1))) ∧
    (due → s.reachable r.station = false → r.lastSent ≠ some { r.commanded with step := step } →
      r.stepFrame ≠ .outstanding →
      ∃ t r', exec (.stepIntervalExpiry f) s = .next t ∧ reactionFrame s t ∧ t.fan f = some r' ∧
        r'.state = .unreachable ∧ r'.commanded = { r.commanded with step := step } ∧ r'.requested = r.requested ∧
        r'.timer = none ∧ r'.reversal = false ∧ r'.stepFrame = .none ∧ r'.slotHeld = false ∧ r'.part = none ∧
        (∀ p, r.part = some p → partEnded s t f p.slot .unreachable) ∧
        fanRecorded s t f (if step = 0 then .runningDown else if there then .running else .ramping) .unreachable .none) ∧
    (¬due → exec (.stepIntervalExpiry f) s = .next s)

/-- The energize limit of a fan in its start phase and the run-down limit of a fan RUNNING DOWN take the fan to FAULT
with that cause: commanded step 0, its slot given back, a FAN RUN or FAN STOP part ended with the cause; a FAN HOME
part that waits for rest goes on, and offers FAN RESET where standstill is shown (R109, R116, R117). The run-down
limit of a fan in FAULT ends its part RUNDOWN TIMEOUT and leaves the fan as it is. REVERSE_DWELL_EXPIRY: the mark is
cleared; with a target step above 0 and the fan ready it is QUEUED, and otherwise STOPPED, where a FAN STOP part ends
OK, a FAN RUN part with the cap 0 OK CLAMPED, and a FAN HOME part that waits offers FAN RESET (R114, R115, R117). An
order ends with the last of its parts (R120, `partEnded`), and each entry into FAULT, STOPPED and UNREACHABLE is
journalled (R122). A starting fan does not wait in its feeder's lists. With a station that cannot be reached the FAN
STEP that follows makes the fan UNREACHABLE, a part not yet ended ending so (R101, R111). Limits whose moment has not
come change nothing (the model's choice, log 5). -/
def Obligations.StartRunDownAndDwellLimits : Prop :=
  (∀ (s : State) (f : Nat) (r : Fan), s.fan f = some r →
    let starting := (r.state = .queued ∧ r.slotHeld = true) ∨ r.state = .energizing
    let due := timerDue s.clock r.timer = true
    let faulted (t : State) (cause : FaultCause) : Prop :=
      reactionFrame s t ∧ t.intake = s.intake ∧ t.channels = s.channels ∧ t.zones = s.zones ∧ t.doors = s.doors ∧
      t.plan = s.plan ∧
      ∃ r', t.fan f = some r' ∧ r'.state = .fault ∧ r'.cause = cause ∧
        r'.commanded = { r.commanded with step := 0 } ∧ r'.slotHeld = false ∧ r'.reversal = false ∧ r'.timer = none ∧
        r'.requested = r.requested ∧ r'.source = r.source ∧ r'.cap = r.cap ∧ fanRecorded s t f r.state .fault cause ∧
        ∀ p, r.part = some p →
          let runs := p.work = .stop ∨ ∃ v, p.work = .run v
          let home := p.work = .home .waiting ∧ r.heard = true ∧ r.standstill = true
          (runs → r'.part = none ∧ partEnded s t f p.slot cause.outcome) ∧
          (¬runs → ¬home → r'.part = some p) ∧
          (home → s.shaped → resetOffered t f p.slot r)
    let lost (t : State) (cause : FaultCause) : Prop := reactionFrame s t ∧ t.intake = s.intake ∧
      fanRecorded s t f r.state .fault cause ∧ fanRecorded s t f .fault .unreachable .none ∧
      (∀ p, r.part = some p → partEnded s t f p.slot
        (match p.work with
          | .run _ => cause.outcome
          | .stop => cause.outcome
          | .home _ => .unreachable
          | .lockout => .unreachable)) ∧
      ∃ r', t.fan f = some r' ∧ r'.state = .unreachable ∧ r'.commanded = { r.commanded with step := 0 } ∧
        r'.slotHeld = false ∧ r'.reversal = false ∧ r'.timer = none ∧ r'.stepFrame = .none ∧ r'.part = none ∧
        r'.requested = r.requested ∧ r'.source = r.source
    let resent := r.lastSent ≠ some { r.commanded with step := 0 } ∧ r.stepFrame ≠ .outstanding
    (starting → due → s.reachable r.station = false → resent → f ∉ (s.feeder r.feeder).class1 →
      f ∉ (s.feeder r.feeder).class0 → ∃ t, exec (.energizeLimitExpiry f) s = .next t ∧ lost t .startTimeout) ∧
    (r.state = .runningDown → due → s.reachable r.station = false → resent →
      ∃ t, exec (.rundownLimitExpiry f) s = .next t ∧ lost t .rundownTimeout) ∧
    (starting → due → s.reachable r.station = true → f ∉ (s.feeder r.feeder).class1 →
      f ∉ (s.feeder r.feeder).class0 → ∃ t, exec (.energizeLimitExpiry f) s = .next t ∧ faulted t .startTimeout) ∧
    (¬starting ∨ ¬due → exec (.energizeLimitExpiry f) s = .next s) ∧
    (r.state = .runningDown → due → s.reachable r.station = true →
      ∃ t, exec (.rundownLimitExpiry f) s = .next t ∧ faulted t .rundownTimeout) ∧
    (∀ p, r.state = .fault → due → r.part = some p →
      ∃ t, exec (.rundownLimitExpiry f) s = .next t ∧ reactionFrame s t ∧ t.intake = s.intake ∧
        t.channels = s.channels ∧ t.zones = s.zones ∧ t.doors = s.doors ∧ t.plan = s.plan ∧
        t.feeders = s.feeders ∧ t.fans = s.fans.set f (some { r with part := none, timer := none }) ∧
        partEnded s t f p.slot .rundownTimeout) ∧
    ((r.state ≠ .runningDown ∧ r.state ≠ .fault) ∨ ¬due → exec (.rundownLimitExpiry f) s = .next s)) ∧
  ∀ (s : State) (f : Nat) (r : Fan), s.fan f = some r →
    let due := r.state = .reverseDwell ∧ timerDue s.clock r.timer = true
    let ready := (r.heard = true ∧ r.standstill = true) ∨ (r.heard = false ∧ r.actual.step = 0)
    let wanted := 0 < min r.requested.step r.cap
    (due → s.reachable r.station = true →
      ∃ t, exec (.reverseDwellExpiry f) s = .next t ∧ reactionFrame s t ∧ t.intake = s.intake ∧
        t.channels = s.channels ∧ t.zones = s.zones ∧ t.doors = s.doors ∧ t.plan = s.plan ∧
        fanRecorded s t f .reverseDwell .stopped .none ∧
        ∃ r', t.fan f = some r' ∧ r'.reversal = false ∧ r'.requested = r.requested ∧ r'.source = r.source ∧
          (wanted ∧ ready → r'.state = .queued ∧ r'.part = r.part) ∧
          (¬(wanted ∧ ready) → r'.state = .stopped ∧ r'.timer = none ∧ r'.commanded = r.commanded ∧
            (∀ p, r.part = some p →
              let out := partEnds .stopped r.commanded r.commanded r.reversible r.cap p.work
              (∀ o, out = some o → r'.part = none ∧ partEnded s t f p.slot o) ∧
              (out = none → p.work ≠ .home .waiting → r'.part = some p) ∧
              (p.work = .home .waiting → s.shaped → resetOffered t f p.slot r)) ∧
            ∀ g, g ≠ f → t.fan g = s.fan g)) ∧
    (due → s.reachable r.station = false → r.stepFrame ≠ .outstanding → r.lastSent ≠ some r.commanded →
      r.lastSent ≠ some { step := 1, dir := if r.reversible then r.requested.dir else r.commanded.dir } →
      ∃ t r', exec (.reverseDwellExpiry f) s = .next t ∧ reactionFrame s t ∧ t.fan f = some r' ∧
        r'.state = .unreachable ∧ r'.reversal = false ∧ r'.timer = none ∧ r'.stepFrame = .none ∧ r'.slotHeld = false ∧
        r'.part = none ∧ r'.requested = r.requested ∧ r'.source = r.source ∧
        fanRecorded s t f .reverseDwell .stopped .none ∧
        ∀ p, r.part = some p → partEnded s t f p.slot .unreachable) ∧
    (¬due → exec (.reverseDwellExpiry f) s = .next s)

/-! ## Doors and the planner (chapters 8 and 9) -/

/-- A door's entry of an applied heartbeat (R135 to R141): a report that repeats the one before is dropped, unless the
door is UNREACHABLE; otherwise the door takes the reported state, OPEN not while it is HELD OPEN, the hold timer runs
exactly in OPEN, and a change of state is journalled as DOOR STATE with the states before and after. An opening stops
the run-on, a closing starts it or, with a run-on time of 0, ends it at once; both work out anew the caps of the fans
that the door lists, lower what is commanded above them, and bring the passage fan to the doors' request; an opening
in a zone whose smoke latch is set leaves the smoke mark, journalled as SMOKE AT DOOR. Every other door, cap and
request is left. A changed cap makes the fan act (R100, R103, R105 to R107): a commanded step above it becomes it at
once, RAMPING or RUNNING with it, or RUNNING DOWN with the limit started when it is 0; a start broken off so gives its
slot back; then the fan acts on its new target (`Fan.afterTarget`), and its part is judged (`partEnds`). That a HELD
OPEN door which goes to UNLATCHED or FAULT and reports OPEN again is OPEN, with a fresh hold timer, though it has not
closed between, is deduced (log 110). -/
def Obligations.DoorReportMovesDoor : Prop :=
  (∀ (s : State) (d : Nat) (rep : Reported) (r : Door), s.door d = some r →
    let t := s.takeReported d rep false
    let isOpen (x : DoorState) : Prop := x ≠ .none ∧ x ≠ .closed
    let new : DoorState :=
      match rep with
      | .closed => .closed
      | .unlatched => .unlatched
      | .open => if r.state = .heldOpen then .heldOpen else .open
      | .fault => .fault
    let opening := ¬isOpen r.state ∧ isOpen new
    let closing := isOpen r.state ∧ ¬isOpen new
    let repeated := r.reported = rep ∧ r.state ≠ .unreachable
    (repeated → t = s) ∧
    (¬repeated →
      reactionFrame s t ∧ t.intake = s.intake ∧ t.channels = s.channels ∧ t.zones = s.zones ∧ t.plan = s.plan ∧
      t.doors = s.doors.set d (some { r with
        reported := rep, state := new,
        holdTimer :=
          if new ≠ .open then none
          else if r.state = .open then r.holdTimer
          else some { start := s.clock, dur := 1000 * r.holdLimit },
        runOnTimer :=
          if opening then none
          else if closing then
            (if r.runOn = 0 then none else some { start := s.clock, dur := 1000 * r.runOn })
          else r.runOnTimer,
        smoke :=
          if opening ∧ ∃ z, r.zone = some z ∧ (s.zone z).latch = true then true
          else if closing ∧ r.runOn = 0 then false
          else r.smoke }) ∧
      (new = r.state → t = { s with doors := t.doors }) ∧
      (new ≠ r.state → (t.attn.getLsbD 1 = true ∨ t.attn.getLsbD 3 = true) ∧
        recorded s t .doorState d r.state.code new.code) ∧
      (∀ z, opening → r.zone = some z → (s.zone z).latch = true → r.smoke = false →
        recorded s t .smokeAtDoor d z (r.passage.getD 0xFF)) ∧
      (¬opening → ¬closing → t.fans = s.fans ∧ t.passageWritten = s.passageWritten) ∧
      ∀ f g, s.fan f = some g → ∃ g', t.fan f = some g' ∧ g'.source = g.source ∧
        (opening ∨ closing → f ∈ r.caps.map Prod.fst →
          capOfDoors t.doors f g.top g'.cap ∧ (g'.cap ≠ g.cap → g'.commanded.step ≤ g'.cap)) ∧
        (f ∉ r.caps.map Prod.fst → g'.cap = g.cap) ∧
        (r.passage ≠ some f → g'.requested = g.requested) ∧
        (opening ∨ closing → r.passage = some f → f < s.passageWritten.length → passageFollows s t f g))) ∧
  (∀ (s : State) (f : Nat) (r : Fan), s.fan f = some r →
    ∃ cap, capOfDoors s.doors f r.top cap ∧ s.recomputeCap f = (s.setCap f cap).handled .fans) ∧
  ∀ (s : State) (f cap : Nat) (r : Fan), s.fan f = some r →
    let t := s.setCap f cap
    let jumps := cap < r.commanded.step
    let cmd : Speed := { r.commanded with step := min r.commanded.step cap }
    let target : Speed :=
      { step := min r.requested.step cap, dir := if r.reversible then r.requested.dir else r.commanded.dir }
    let turned : Bool := target.dir != r.commanded.dir
    let next : FanState :=
      if jumps ∧ (r.state = .ramping ∨ r.state = .running) then (if cap = 0 then .runningDown else .ramping)
      else Fan.afterTarget { r with commanded := cmd } target
    (r.cap = cap → t = s) ∧
    (r.cap ≠ cap → s.reachable r.station = true → (r.slotHeld = true → f ∉ (s.feeder r.feeder).waiting) →
      reactionFrame s t ∧ t.doors = s.doors ∧ t.plan = s.plan ∧ t.zones = s.zones ∧ t.channels = s.channels ∧
      ∃ r', t.fan f = some r' ∧ r'.cap = cap ∧ r'.state = next ∧ r'.requested = r.requested ∧ r'.source = r.source ∧
        (next ≠ .queued → r'.commanded =
          if next = .runningDown ∧ r.state ≠ .runningDown then { r.commanded with step := 0 } else cmd) ∧
        (next = .runningDown → r.state = .queued ∨ r.state = .energizing → r'.slotHeld = false) ∧
        (next = .runningDown → r'.reversal = (r.reversal || turned)) ∧
        (next = .runningDown → r.state ≠ .runningDown →
          r'.timer = some { start := s.clock, dur := 1000 * r.profile.rundown }) ∧
        (next = .ramping → r'.reversal = turned) ∧
        (next = .ramping → r.state = .running →
          r'.timer = some { start := s.clock, dur := 500 * r.profile.interval }) ∧
        ∀ p out, r.part = some p → partEnds next cmd target r.reversible cap p.work = some out →
          r'.part = none ∧ partEnded s t f p.slot out)

/-- DOOR_HOLD_EXPIRY: the door is HELD OPEN and the hold timer stopped, and DOOR HELD is journalled. RUN_ON_EXPIRY:
the timer is stopped, the smoke mark cleared, and the request for the passage fan worked out again from the doors that
still call; it is written when it differs from the one last written. The other doors are left. Expiries whose moment
has not come change nothing (the model's choice, log 5). -/
def Obligations.DoorTimersExpire : Prop :=
  ∀ (s : State) (d : Nat) (r : Door), s.door d = some r →
    (timerDue s.clock r.holdTimer = true →
      ∃ t, exec (.doorHoldExpiry d) s = .next t ∧ reactionFrame s t ∧
        t = { s with
          mem := t.mem, attn := t.attn, imageCounts := t.imageCounts, jWrite := t.jWrite, jGap := t.jGap,
          jSeq := t.jSeq, doors := s.doors.set d (some { r with state := .heldOpen, holdTimer := none }) } ∧
        recorded s t .doorHeld d 0 0) ∧
    (timerDue s.clock r.holdTimer = false → exec (.doorHoldExpiry d) s = .next s) ∧
    (timerDue s.clock r.runOnTimer = true →
      ∃ t, exec (.runOnExpiry d) s = .next t ∧ reactionFrame s t ∧ t.intake = s.intake ∧ t.channels = s.channels ∧
        t.zones = s.zones ∧ t.plan = s.plan ∧
        t.doors = s.doors.set d (some { r with runOnTimer := none, smoke := false }) ∧
        ∀ f g, r.passage = some f → s.fan f = some g → f < s.passageWritten.length →
          let callers := (t.doors.filterMap id).filter fun x => x.passage == some f &&
            ((x.state != .none && x.state != .closed) || (x.state == .closed && x.runOnTimer.isSome))
          let v : Speed :=
            { step := if callers.any (fun x => x.smoke) then g.top else (callers.map fun x => x.passageStep).foldl max 0,
              dir := .plus }
          t.passageWritten.getD f none = some v ∧
          (s.passageWritten.getD f none ≠ some v → g.kind = .passage → g.source = .auto → g.state ≠ .lockedOut →
            ∃ g', t.fan f = some g' ∧ g'.requested = { v with step := min v.step g.top } ∧ g'.doorReq = true)) ∧
    (timerDue s.clock r.runOnTimer = false → exec (.runOnExpiry d) s = .next s)

/-- PLAN_TIMER_EXPIRY in NORMAL: the plan timer restarts; with SMOKE HOLD nothing is selected, and otherwise the stage's
count, at most the candidates, is. CONTROL_TIMER_EXPIRY in FIRE: the timer restarts; the air velocity is that of the zone
upwind of the fire, or the mean of the configured zones that have one, and without either the measurement is shown as 0
(the model's choice, log 40); turned into the smoke direction it is compared with the target and the band, and the fire
count rises by 1 unless a picked fan is still moving, falls by 1 down to the minimum count, or stays; limited to the
candidates, it is what is picked. Which fans are picked and what they and the others are asked for is as R153, R154 and
R157 give it (`selectionMade`). Channels, zones and doors are left. A timer that has not run out changes nothing (the
model's choice, log 5). -/
def Obligations.PlannerTimersEvaluateAndSteer : Prop :=
  (∀ s : State,
    let due := s.plan.regime = .normal ∧ timerDue s.clock s.plan.planTimer = true
    let timer : Option Timer := some { start := s.clock, dur := 1000 * s.plan.planInterval }
    (due → ∃ t, exec .planTimerExpiry s = .next t ∧ reactionFrame s t ∧ t.intake = s.intake ∧
      t.channels = s.channels ∧ t.zones = s.zones ∧ t.doors = s.doors ∧
      (s.plan.smokeHold = true →
        t = { s with mem := t.mem, imageCounts := t.imageCounts, plan := { s.plan with planTimer := timer } }) ∧
      (s.plan.smokeHold = false →
        t.plan = { s.plan with
          planTimer := timer, picked := t.plan.picked, candidates := t.plan.candidates, kept := t.plan.kept } ∧
        selectionMade s t (s.plan.stages.getD s.plan.tunnel 0))) ∧
    (¬due → exec .planTimerExpiry s = .next s)) ∧
  ∀ s : State,
    let p := s.plan
    let due := p.regime = .fire ∧ timerDue s.clock p.controlTimer = true
    let air (z : Nat) : Option Int :=
      if (s.zone z).airv.vstate = .present ∨ (s.zone z).airv.vstate = .held then some (s.zone z).airv.value else none
    let upwind : Option Int :=
      if p.smokeDir = .plus then (if p.fireZone = 0 then none else air (p.fireZone - 1))
      else if p.fireZone < 15 then air (p.fireZone + 1) else none
    let all := p.configured.filterMap air
    let measured : Option Int :=
      if upwind.isSome then upwind else if all = [] then none else some (all.sum.tdiv all.length)
    let source : Measured := if upwind.isSome then .upstream else if all = [] then .none else .mean
    let moving : Bool := p.picked.any fun f => (s.fan f).any fun r =>
      r.state == .queued || r.state == .energizing || r.state == .ramping || r.state == .runningDown ||
        r.state == .reverseDwell
    let v : Int := measured.getD 0
    let w : Int := if p.smokeDir = .plus then v else -v
    let count : Nat :=
      if measured = none then p.fireCount
      else if w < (p.target : Int) - p.band then (if moving then p.fireCount else p.fireCount + 1)
      else if (p.target : Int) + p.band < w then (if p.minCount < p.fireCount then p.fireCount - 1 else p.fireCount)
      else p.fireCount
    (due → ∃ t, exec .controlTimerExpiry s = .next t ∧ reactionFrame s t ∧ t.intake = s.intake ∧
      t.channels = s.channels ∧ t.zones = s.zones ∧ t.doors = s.doors ∧
      t.plan = { p with
        controlTimer := p.controlTimer.map fun x => { x with start := s.clock }, measured := v, source := source, w := w,
        settling := moving, fireCount := min count t.plan.candidates, picked := t.plan.picked,
        candidates := t.plan.candidates, kept := 0 } ∧
      t.plan.picked.length = t.plan.fireCount ∧ selectionMade s t count) ∧
    (¬due → exec .controlTimerExpiry s = .next s)

/-! ## Time (0.6, 6.5, 10.2) -/

/-- CONTROLLER_CLOCK_TICK raises the clock by 1, shows it in the control block while the window is not being formatted,
and owes a second at each whole one; RUN_SECONDS_TICK counts a second owed for every fan that turns and can be reached:
60 are a minute, and the minutes stay at 4294967295. With no second owed it changes nothing. That a tick is a command and
seconds are owed (log 1), and that the clock tick updates no table of the image, at a whole second neither, the remaining
times being brought up at RUN_SECONDS_TICK (log 8), is the model's choice. -/
def Obligations.TicksCountTime : Prop :=
  ∀ s : State,
    (∃ t, exec .controllerClockTick s = .next t ∧
      t = { s with
        mem := t.mem, clock := s.clock + 1,
        secondsOwed := if (s.clock + 1).toNat % 1000 = 0 then s.secondsOwed + 1 else s.secondsOwed } ∧
      (s.formatting.isSome = true → t.mem = s.mem) ∧
      (s.formatting = none → Memory.wf s.mem = true → t.readBytes 0x04 4 = le32 (s.clock + 1).toNat ∧
        ∀ a, a < 4 ∨ 8 ≤ a → t.readByte a = s.readByte a)) ∧
    (s.secondsOwed = 0 → exec .runSecondsTick s = .next s) ∧
    (0 < s.secondsOwed → ∃ t, exec .runSecondsTick s = .next t ∧
      t = { s with mem := t.mem, imageCounts := t.imageCounts, secondsOwed := s.secondsOwed - 1, fans := t.fans } ∧
      (Memory.wf s.mem = true → ∀ a, ¬imagePlace a → t.readByte a = s.readByte a) ∧
      ∀ f, t.fan f = (s.fan f).map fun r =>
        if r.actual.step = 0 ∨ r.state = .unreachable then r
        else if r.runSeconds < 59 then { r with runSeconds := r.runSeconds + 1 }
        else { r with runSeconds := 0, runMinutes := min (r.runMinutes + 1) 4294967295 })

/-! ## What every step keeps -/

/-- Right after reset the window is canonical, the records have their places, the order numbers are sound, every tag is
free, no block has an order in hand, the ring and the ENROL agree, the planner holds what the zones hold, and no event
stands recorded for the image (the model's own record, log 8). -/
def Obligations.ResetStateIsSound : Prop :=
  Memory.wf State.reset.mem = true ∧ State.reset.shaped ∧ State.reset.numbersSound ∧ State.reset.tagsConserved ∧
    State.reset.ordersOwned ∧ State.reset.ringSound ∧ State.reset.plannerSound ∧ State.reset.events = []

/-- Every step keeps the window in its canonical form, every list of records at its size, and the order numbers sound: no
slot number twice in the intake queue and the active set, and none of 64 or above; and, where it held before, that the
smoke count is the number of zones whose latch is set (R150), and that the planner's tunnel level and configured set are
those of the zones. No step leaves an event recorded for the image (the model's own record, log 8). -/
def Obligations.EveryStepKeepsStateSound : Prop :=
  ∀ s t : State, Memory.wf s.mem = true → s.shaped → s.numbersSound → step s = .next t →
    Memory.wf t.mem = true ∧ t.shaped ∧ t.numbersSound ∧ (s.plannerSound → t.plannerSound) ∧
      (s.events = [] → t.events = [])

/-- Every step keeps each of the 64 tags free, resting or outstanding, and only one of these. -/
def Obligations.EveryStepConservesTags : Prop :=
  ∀ s t : State, s.tagsConserved → step s = .next t → t.tagsConserved

/-- Every step keeps the orders that the blocks have in hand in the active set, each with the work of its block. -/
def Obligations.EveryStepKeepsOrdersOwned : Prop :=
  ∀ s t : State, s.numbersSound → s.ordersOwned → step s = .next t → t.ordersOwned

/-- Every step keeps the ring and the ENROL in agreement: an ENROL is in progress exactly in ENROLLING (R25, R35, R36),
and in every state but IDLE a cycle has been opened since the ring left IDLE (R1; that the cycles are counted is the
model's choice, log 13). -/
def Obligations.EveryStepKeepsRingSound : Prop :=
  ∀ s t : State, s.ringSound → step s = .next t → t.ringSound

/-- The mask is changed only by a reset and a CTRL write, the cycle interval and the heal time only by a reset and SET RING,
and the formatting only by a reset and its end. That the queue of commands is changed by no command, and the clock only by
a reset and the tick, is the model's choice (time comes from commands, which wait in a queue of the model's own: log 1);
so is that the pins change only by the signal-detect input, a reset keeping them (log 3). -/
def Obligations.SettingsChangeOnlyByTheirCommands : Prop :=
  ∀ (c : Instr) (s t : State), c.wellFormed = true → exec c s = .next t →
    t.pending = s.pending ∧
    (t.mask ≠ s.mask → c = .powerOnReset ∨ (∃ v, c = .softReset v) ∨ ∃ v, c = .ctrlMaskWrite v) ∧
    (t.clock ≠ s.clock → c = .powerOnReset ∨ (∃ v, c = .softReset v) ∨ c = .controllerClockTick) ∧
    (t.sigA ≠ s.sigA ∨ t.sigB ≠ s.sigB → ∃ port level, c = .signalDetectChange port level) ∧
    (t.ring.interval ≠ s.ring.interval ∨ t.ring.healTime ≠ s.ring.healTime →
      c = .powerOnReset ∨ (∃ v, c = .softReset v) ∨ c = .setRing) ∧
    (t.formatting ≠ s.formatting → c = .powerOnReset ∨ (∃ v, c = .softReset v) ∨ c = .resetDone)
end

