-- ==== Sys2Proof/Laws/Memory.lean ====
section
/-! SUPPORT. The laws of the window's list of cells: reading after writing, and the canonical form kept by every
operation over memory. -/

namespace Sys2Proof.Machine

/-- Every listed address lies above `k`. -/
def Memory.above (k : Nat) (m : List Host.Cell) : Prop := ∀ c ∈ m, k < c.1

theorem Memory.wf_nil : Memory.wf [] = true := rfl

/-- The canonical form of a list with a first cell. -/
theorem Memory.wf_cons (k : Nat) (v : Byte) (rest : List Host.Cell) :
    Memory.wf ((k, v) :: rest) = true ↔ v ≠ 0 ∧ Memory.above k rest ∧ Memory.wf rest = true := by
  induction rest generalizing k v with
  | nil => simp [Memory.wf, Memory.above]
  | cons c rest ih =>
    obtain ⟨k', v'⟩ := c
    have h := ih k' v'
    constructor
    · intro hw
      simp only [Memory.wf, Bool.and_eq_true, bne_iff_ne, ne_eq, decide_eq_true_eq] at hw
      refine ⟨hw.1.1, ?_, hw.2⟩
      intro c hc
      rcases List.mem_cons.mp hc with rfl | hc
      · exact hw.1.2
      · exact Nat.lt_trans hw.1.2 ((h.mp hw.2).2.1 c hc)
    · rintro ⟨hv, ha, hw⟩
      simp only [Memory.wf, Bool.and_eq_true, bne_iff_ne, ne_eq, decide_eq_true_eq]
      exact ⟨⟨hv, ha (k', v') (List.mem_cons_self ..)⟩, hw⟩

/-- An address below every listed one reads as an unlisted byte. -/
theorem Memory.read_of_above (m : List Host.Cell) (a k : Nat) (h : Memory.above k m) (ha : a ≤ k) :
    Memory.read m a = 0 := by
  cases m with
  | nil => rfl
  | cons c rest =>
    obtain ⟨k', v'⟩ := c
    have : k < k' := h (k', v') (List.mem_cons_self ..)
    simp [Memory.read, show a ≠ k' by omega, show a < k' by omega]

/-- What a write leaves lies above whatever both the old cells and the address lie above. -/
theorem Memory.above_write (m : List Host.Cell) (k a : Nat) (b : Byte) (h : Memory.above k m) (ha : k < a) :
    Memory.above k (Memory.write m a b) := by
  induction m with
  | nil => by_cases hb : b = 0 <;> simp [Memory.write, hb, Memory.above, ha]
  | cons c rest ih =>
    obtain ⟨k', v'⟩ := c
    have hk : k < k' := h (k', v') (List.mem_cons_self ..)
    have hr : Memory.above k rest := fun c hc => h c (List.mem_cons_of_mem _ hc)
    have ih := ih hr
    simp only [Memory.write]
    split
    · split
      · exact h
      · intro c hc; rcases List.mem_cons.mp hc with rfl | hc
        · exact ha
        · exact h c hc
    · split
      · split
        · exact hr
        · intro c hc; rcases List.mem_cons.mp hc with rfl | hc
          · exact ha
          · exact hr c hc
      · intro c hc; rcases List.mem_cons.mp hc with rfl | hc
        · exact hk
        · exact ih c hc

/-- A write keeps the canonical form. -/
theorem Memory.write_wf (m : List Host.Cell) (a : Nat) (b : Byte) (h : Memory.wf m = true) :
    Memory.wf (Memory.write m a b) = true := by
  induction m with
  | nil =>
    simp only [Memory.write]
    split
    · rfl
    · rename_i hb; exact (Memory.wf_cons a b []).mpr ⟨hb, fun _ hc => (nomatch hc), rfl⟩
  | cons c rest ih =>
    obtain ⟨k, v⟩ := c
    obtain ⟨hv, hab, hw⟩ := (Memory.wf_cons k v rest).mp h
    simp only [Memory.write]
    split
    · rename_i hlt
      split
      · exact h
      · rename_i hb
        refine (Memory.wf_cons a b _).mpr ⟨hb, ?_, h⟩
        intro c hc; rcases List.mem_cons.mp hc with rfl | hc
        · exact hlt
        · exact Nat.lt_trans hlt (hab c hc)
    · split
      · rename_i hge heq
        split
        · exact hw
        · rename_i hb
          exact (Memory.wf_cons a b _).mpr ⟨hb, heq ▸ hab, hw⟩
      · rename_i hge hne
        exact (Memory.wf_cons k v _).mpr ⟨hv, Memory.above_write rest k a b hab (by omega), ih hw⟩

/-- A read after a write to the same place gives the byte written. -/
theorem Memory.read_write_same (m : List Host.Cell) (a : Nat) (b : Byte) (h : Memory.wf m = true) :
    Memory.read (Memory.write m a b) a = b := by
  induction m with
  | nil =>
    simp only [Memory.write]
    split
    · rename_i hb; exact hb.symm
    · simp [Memory.read]
  | cons c rest ih =>
    obtain ⟨k, v⟩ := c
    obtain ⟨hv, hab, hw⟩ := (Memory.wf_cons k v rest).mp h
    simp only [Memory.write]
    split
    · rename_i hlt
      split
      · rename_i hb; simp [Memory.read, hb, show a ≠ k by omega, hlt]
      · simp [Memory.read]
    · split
      · rename_i hge heq
        split
        · rename_i hb; rw [hb]; exact Memory.read_of_above rest a k hab (by omega)
        · simp [Memory.read]
      · rename_i hge hne
        simp [Memory.read, hne, hge, ih hw]

/-- A write leaves every other place alone. -/
theorem Memory.read_write_other (m : List Host.Cell) (a c : Nat) (b : Byte) (h : Memory.wf m = true) (hc : c ≠ a) :
    Memory.read (Memory.write m a b) c = Memory.read m c := by
  induction m with
  | nil =>
    simp only [Memory.write]
    split
    · rfl
    · simp [Memory.read, hc]
  | cons d rest ih =>
    obtain ⟨k, v⟩ := d
    obtain ⟨hv, hab, hw⟩ := (Memory.wf_cons k v rest).mp h
    simp only [Memory.write]
    split
    · rename_i hlt
      split
      · rfl
      · simp only [Memory.read, hc, if_false]
        by_cases hca : c < a
        · simp [hca, show c ≠ k by omega, show c < k by omega]
        · simp [hca]
    · split
      · rename_i hge heq
        subst heq
        split
        · simp only [Memory.read, hc, if_false]
          by_cases hca : c < a
          · simp [hca, Memory.read_of_above rest c a hab (by omega)]
          · simp [hca]
        · simp [Memory.read, hc]
      · simp only [Memory.read, ih hw]

/-- Storing bytes keeps the canonical form. -/
theorem Memory.writeBytes_wf (bs : List Byte) (m : List Host.Cell) (a : Nat) (h : Memory.wf m = true) :
    Memory.wf (Memory.writeBytes m a bs) = true := by
  induction bs generalizing m a with
  | nil => exact h
  | cons b bs ih => exact ih _ _ (Memory.write_wf m a b h)

/-- What stands at an address after bytes have been stored: the byte stored there, or what stood before. -/
theorem Memory.read_writeBytes (bs : List Byte) (m : List Host.Cell) (a c : Nat) (h : Memory.wf m = true) :
    Memory.read (Memory.writeBytes m a bs) c =
      if a ≤ c ∧ c < a + bs.length then bs.getD (c - a) 0 else Memory.read m c := by
  induction bs generalizing m a with
  | nil => simp only [Memory.writeBytes, List.length_nil]; rw [if_neg (by omega)]
  | cons b bs ih =>
    rw [Memory.writeBytes, ih _ _ (Memory.write_wf m a b h)]
    by_cases hca : c = a
    · subst hca
      rw [if_neg (by omega), Memory.read_write_same m c b h, if_pos (by simp)]
      simp
    · rw [Memory.read_write_other m a c b h hca]
      by_cases hin : a + 1 ≤ c ∧ c < a + 1 + bs.length
      · rw [if_pos hin, if_pos (by simp; omega), show c - a = (c - (a + 1)) + 1 by omega, List.getD_cons_succ]
      · rw [if_neg hin, if_neg (by simp; omega)]

/-- Leaving cells out keeps the canonical form. -/
theorem Memory.filter_wf (p : Host.Cell → Bool) (m : List Host.Cell) (h : Memory.wf m = true) :
    Memory.wf (m.filter p) = true := by
  induction m with
  | nil => rfl
  | cons c rest ih =>
    obtain ⟨k, v⟩ := c
    obtain ⟨hv, hab, hw⟩ := (Memory.wf_cons k v rest).mp h
    by_cases hp : p (k, v) = true
    · rw [List.filter_cons_of_pos hp]
      exact (Memory.wf_cons k v _).mpr ⟨hv, fun c hc => hab c (List.mem_of_mem_filter hc), ih hw⟩
    · rw [List.filter_cons_of_neg hp]; exact ih hw

/-- Canonical lists that read the same everywhere are the same list. -/
theorem Memory.eq_of_read_eq (m n : List Host.Cell) (hm : Memory.wf m = true) (hn : Memory.wf n = true)
    (h : ∀ a, Memory.read m a = Memory.read n a) : m = n := by
  induction m generalizing n with
  | nil =>
    cases n with
    | nil => rfl
    | cons c rest =>
      obtain ⟨k, v⟩ := c
      have := h k
      simp [Memory.read] at this
      exact absurd this.symm ((Memory.wf_cons k v rest).mp hn).1
  | cons c rest ih =>
    obtain ⟨k, v⟩ := c
    obtain ⟨hv, hab, hw⟩ := (Memory.wf_cons k v rest).mp hm
    cases n with
    | nil =>
      have := h k
      simp [Memory.read] at this
      exact absurd this hv
    | cons d rest' =>
      obtain ⟨k', v'⟩ := d
      obtain ⟨hv', hab', hw'⟩ := (Memory.wf_cons k' v' rest').mp hn
      have hk : k = k' := by
        rcases Nat.lt_trichotomy k k' with hlt | heq | hgt
        · have := h k; simp [Memory.read, show k ≠ k' by omega, hlt] at this; exact absurd this hv
        · exact heq
        · have := h k'; simp [Memory.read, show k' ≠ k by omega, hgt] at this; exact absurd this.symm hv'
      subst hk
      have hvv : v = v' := by have := h k; simpa [Memory.read] using this
      subst hvv
      have : rest = rest' := by
        refine ih rest' hw hw' fun a => ?_
        by_cases hak : a ≤ k
        · rw [Memory.read_of_above rest a k hab hak, Memory.read_of_above rest' a k hab' hak]
        · have := h a
          simpa [Memory.read, show a ≠ k by omega, show ¬a < k by omega] using this
      rw [this]

/-- The window after reset is in canonical form. -/
theorem State.reset_mem_wf : Memory.wf State.reset.mem = true := rfl

end Sys2Proof.Machine
end

