-- ==== Sys2Proof/Laws/State.lean ====
section
/-! SUPPORT. The small lemmas of the state record: each field after each update of Machine/Ops.lean and Machine/Flags.lean,
so that no proof unfolds a record update. -/

namespace Sys2Proof.Machine

variable (s : State)

/-! ## State.write -/

@[simp] theorem State.write_pending (a : Nat) (bs : List Byte) : (s.write a bs).pending = s.pending := rfl
@[simp] theorem State.write_clock (a : Nat) (bs : List Byte) : (s.write a bs).clock = s.clock := rfl
@[simp] theorem State.write_mem (a : Nat) (bs : List Byte) : (s.write a bs).mem = Memory.writeBytes s.mem a bs := rfl
@[simp] theorem State.write_attn (a : Nat) (bs : List Byte) : (s.write a bs).attn = s.attn := rfl
@[simp] theorem State.write_mask (a : Nat) (bs : List Byte) : (s.write a bs).mask = s.mask := rfl
@[simp] theorem State.write_formatting (a : Nat) (bs : List Byte) : (s.write a bs).formatting = s.formatting := rfl
@[simp] theorem State.write_formatStores (a : Nat) (bs : List Byte) :
    (s.write a bs).formatStores = s.formatStores := rfl
@[simp] theorem State.write_freeIdx (a : Nat) (bs : List Byte) : (s.write a bs).freeIdx = s.freeIdx := rfl
@[simp] theorem State.write_imageCounts (a : Nat) (bs : List Byte) : (s.write a bs).imageCounts = s.imageCounts := rfl
@[simp] theorem State.write_intake (a : Nat) (bs : List Byte) : (s.write a bs).intake = s.intake := rfl
@[simp] theorem State.write_active (a : Nat) (bs : List Byte) : (s.write a bs).active = s.active := rfl
@[simp] theorem State.write_jWrite (a : Nat) (bs : List Byte) : (s.write a bs).jWrite = s.jWrite := rfl
@[simp] theorem State.write_jGap (a : Nat) (bs : List Byte) : (s.write a bs).jGap = s.jGap := rfl
@[simp] theorem State.write_jSeq (a : Nat) (bs : List Byte) : (s.write a bs).jSeq = s.jSeq := rfl
@[simp] theorem State.write_sigA (a : Nat) (bs : List Byte) : (s.write a bs).sigA = s.sigA := rfl
@[simp] theorem State.write_sigB (a : Nat) (bs : List Byte) : (s.write a bs).sigB = s.sigB := rfl
@[simp] theorem State.write_ring (a : Nat) (bs : List Byte) : (s.write a bs).ring = s.ring := rfl
@[simp] theorem State.write_fold (a : Nat) (bs : List Byte) : (s.write a bs).fold = s.fold := rfl
@[simp] theorem State.write_enrol (a : Nat) (bs : List Byte) : (s.write a bs).enrol = s.enrol := rfl
@[simp] theorem State.write_stations (a : Nat) (bs : List Byte) : (s.write a bs).stations = s.stations := rfl
@[simp] theorem State.write_channels (a : Nat) (bs : List Byte) : (s.write a bs).channels = s.channels := rfl
@[simp] theorem State.write_zones (a : Nat) (bs : List Byte) : (s.write a bs).zones = s.zones := rfl
@[simp] theorem State.write_tunnelLevel (a : Nat) (bs : List Byte) : (s.write a bs).tunnelLevel = s.tunnelLevel := rfl
@[simp] theorem State.write_fans (a : Nat) (bs : List Byte) : (s.write a bs).fans = s.fans := rfl
@[simp] theorem State.write_feeders (a : Nat) (bs : List Byte) : (s.write a bs).feeders = s.feeders := rfl
@[simp] theorem State.write_doors (a : Nat) (bs : List Byte) : (s.write a bs).doors = s.doors := rfl
@[simp] theorem State.write_passageWritten (a : Nat) (bs : List Byte) :
    (s.write a bs).passageWritten = s.passageWritten := rfl
@[simp] theorem State.write_plan (a : Nat) (bs : List Byte) : (s.write a bs).plan = s.plan := rfl
@[simp] theorem State.write_params (a : Nat) (bs : List Byte) : (s.write a bs).params = s.params := rfl
@[simp] theorem State.write_secondsOwed (a : Nat) (bs : List Byte) : (s.write a bs).secondsOwed = s.secondsOwed := rfl
@[simp] theorem State.write_events (a : Nat) (bs : List Byte) : (s.write a bs).events = s.events := rfl

/-! ## State.setAttn -/

@[simp] theorem State.setAttn_pending (b : AttnBit) : (s.setAttn b).pending = s.pending := rfl
@[simp] theorem State.setAttn_clock (b : AttnBit) : (s.setAttn b).clock = s.clock := rfl
@[simp] theorem State.setAttn_mem (b : AttnBit) : (s.setAttn b).mem = s.mem := rfl
@[simp] theorem State.setAttn_attn (b : AttnBit) : (s.setAttn b).attn = s.attn ||| BitVec.ofNat 6 (2 ^ b.pos) := rfl
@[simp] theorem State.setAttn_mask (b : AttnBit) : (s.setAttn b).mask = s.mask := rfl
@[simp] theorem State.setAttn_formatting (b : AttnBit) : (s.setAttn b).formatting = s.formatting := rfl
@[simp] theorem State.setAttn_formatStores (b : AttnBit) : (s.setAttn b).formatStores = s.formatStores := rfl
@[simp] theorem State.setAttn_freeIdx (b : AttnBit) : (s.setAttn b).freeIdx = s.freeIdx := rfl
@[simp] theorem State.setAttn_imageCounts (b : AttnBit) : (s.setAttn b).imageCounts = s.imageCounts := rfl
@[simp] theorem State.setAttn_intake (b : AttnBit) : (s.setAttn b).intake = s.intake := rfl
@[simp] theorem State.setAttn_active (b : AttnBit) : (s.setAttn b).active = s.active := rfl
@[simp] theorem State.setAttn_jWrite (b : AttnBit) : (s.setAttn b).jWrite = s.jWrite := rfl
@[simp] theorem State.setAttn_jGap (b : AttnBit) : (s.setAttn b).jGap = s.jGap := rfl
@[simp] theorem State.setAttn_jSeq (b : AttnBit) : (s.setAttn b).jSeq = s.jSeq := rfl
@[simp] theorem State.setAttn_sigA (b : AttnBit) : (s.setAttn b).sigA = s.sigA := rfl
@[simp] theorem State.setAttn_sigB (b : AttnBit) : (s.setAttn b).sigB = s.sigB := rfl
@[simp] theorem State.setAttn_ring (b : AttnBit) : (s.setAttn b).ring = s.ring := rfl
@[simp] theorem State.setAttn_fold (b : AttnBit) : (s.setAttn b).fold = s.fold := rfl
@[simp] theorem State.setAttn_enrol (b : AttnBit) : (s.setAttn b).enrol = s.enrol := rfl
@[simp] theorem State.setAttn_stations (b : AttnBit) : (s.setAttn b).stations = s.stations := rfl
@[simp] theorem State.setAttn_channels (b : AttnBit) : (s.setAttn b).channels = s.channels := rfl
@[simp] theorem State.setAttn_zones (b : AttnBit) : (s.setAttn b).zones = s.zones := rfl
@[simp] theorem State.setAttn_tunnelLevel (b : AttnBit) : (s.setAttn b).tunnelLevel = s.tunnelLevel := rfl
@[simp] theorem State.setAttn_fans (b : AttnBit) : (s.setAttn b).fans = s.fans := rfl
@[simp] theorem State.setAttn_feeders (b : AttnBit) : (s.setAttn b).feeders = s.feeders := rfl
@[simp] theorem State.setAttn_doors (b : AttnBit) : (s.setAttn b).doors = s.doors := rfl
@[simp] theorem State.setAttn_passageWritten (b : AttnBit) : (s.setAttn b).passageWritten = s.passageWritten := rfl
@[simp] theorem State.setAttn_plan (b : AttnBit) : (s.setAttn b).plan = s.plan := rfl
@[simp] theorem State.setAttn_params (b : AttnBit) : (s.setAttn b).params = s.params := rfl
@[simp] theorem State.setAttn_secondsOwed (b : AttnBit) : (s.setAttn b).secondsOwed = s.secondsOwed := rfl
@[simp] theorem State.setAttn_events (b : AttnBit) : (s.setAttn b).events = s.events := rfl

/-! ## State.clearAttn -/

@[simp] theorem State.clearAttn_pending (v : BitVec 32) : (s.clearAttn v).pending = s.pending := rfl
@[simp] theorem State.clearAttn_clock (v : BitVec 32) : (s.clearAttn v).clock = s.clock := rfl
@[simp] theorem State.clearAttn_mem (v : BitVec 32) : (s.clearAttn v).mem = s.mem := rfl
@[simp] theorem State.clearAttn_attn (v : BitVec 32) : (s.clearAttn v).attn = s.attn &&& ~~~(v.setWidth 6) := rfl
@[simp] theorem State.clearAttn_mask (v : BitVec 32) : (s.clearAttn v).mask = s.mask := rfl
@[simp] theorem State.clearAttn_formatting (v : BitVec 32) : (s.clearAttn v).formatting = s.formatting := rfl
@[simp] theorem State.clearAttn_formatStores (v : BitVec 32) : (s.clearAttn v).formatStores = s.formatStores := rfl
@[simp] theorem State.clearAttn_freeIdx (v : BitVec 32) : (s.clearAttn v).freeIdx = s.freeIdx := rfl
@[simp] theorem State.clearAttn_imageCounts (v : BitVec 32) : (s.clearAttn v).imageCounts = s.imageCounts := rfl
@[simp] theorem State.clearAttn_intake (v : BitVec 32) : (s.clearAttn v).intake = s.intake := rfl
@[simp] theorem State.clearAttn_active (v : BitVec 32) : (s.clearAttn v).active = s.active := rfl
@[simp] theorem State.clearAttn_jWrite (v : BitVec 32) : (s.clearAttn v).jWrite = s.jWrite := rfl
@[simp] theorem State.clearAttn_jGap (v : BitVec 32) : (s.clearAttn v).jGap = s.jGap := rfl
@[simp] theorem State.clearAttn_jSeq (v : BitVec 32) : (s.clearAttn v).jSeq = s.jSeq := rfl
@[simp] theorem State.clearAttn_sigA (v : BitVec 32) : (s.clearAttn v).sigA = s.sigA := rfl
@[simp] theorem State.clearAttn_sigB (v : BitVec 32) : (s.clearAttn v).sigB = s.sigB := rfl
@[simp] theorem State.clearAttn_ring (v : BitVec 32) : (s.clearAttn v).ring = s.ring := rfl
@[simp] theorem State.clearAttn_fold (v : BitVec 32) : (s.clearAttn v).fold = s.fold := rfl
@[simp] theorem State.clearAttn_enrol (v : BitVec 32) : (s.clearAttn v).enrol = s.enrol := rfl
@[simp] theorem State.clearAttn_stations (v : BitVec 32) : (s.clearAttn v).stations = s.stations := rfl
@[simp] theorem State.clearAttn_channels (v : BitVec 32) : (s.clearAttn v).channels = s.channels := rfl
@[simp] theorem State.clearAttn_zones (v : BitVec 32) : (s.clearAttn v).zones = s.zones := rfl
@[simp] theorem State.clearAttn_tunnelLevel (v : BitVec 32) : (s.clearAttn v).tunnelLevel = s.tunnelLevel := rfl
@[simp] theorem State.clearAttn_fans (v : BitVec 32) : (s.clearAttn v).fans = s.fans := rfl
@[simp] theorem State.clearAttn_feeders (v : BitVec 32) : (s.clearAttn v).feeders = s.feeders := rfl
@[simp] theorem State.clearAttn_doors (v : BitVec 32) : (s.clearAttn v).doors = s.doors := rfl
@[simp] theorem State.clearAttn_passageWritten (v : BitVec 32) :
    (s.clearAttn v).passageWritten = s.passageWritten := rfl
@[simp] theorem State.clearAttn_plan (v : BitVec 32) : (s.clearAttn v).plan = s.plan := rfl
@[simp] theorem State.clearAttn_params (v : BitVec 32) : (s.clearAttn v).params = s.params := rfl
@[simp] theorem State.clearAttn_secondsOwed (v : BitVec 32) : (s.clearAttn v).secondsOwed = s.secondsOwed := rfl
@[simp] theorem State.clearAttn_events (v : BitVec 32) : (s.clearAttn v).events = s.events := rfl

/-! ## State.modFan -/

@[simp] theorem State.modFan_pending (f : Nat) (g : Fan → Fan) : (s.modFan f g).pending = s.pending := rfl
@[simp] theorem State.modFan_clock (f : Nat) (g : Fan → Fan) : (s.modFan f g).clock = s.clock := rfl
@[simp] theorem State.modFan_mem (f : Nat) (g : Fan → Fan) : (s.modFan f g).mem = s.mem := rfl
@[simp] theorem State.modFan_attn (f : Nat) (g : Fan → Fan) : (s.modFan f g).attn = s.attn := rfl
@[simp] theorem State.modFan_mask (f : Nat) (g : Fan → Fan) : (s.modFan f g).mask = s.mask := rfl
@[simp] theorem State.modFan_formatting (f : Nat) (g : Fan → Fan) : (s.modFan f g).formatting = s.formatting := rfl
@[simp] theorem State.modFan_formatStores (f : Nat) (g : Fan → Fan) :
    (s.modFan f g).formatStores = s.formatStores := rfl
@[simp] theorem State.modFan_freeIdx (f : Nat) (g : Fan → Fan) : (s.modFan f g).freeIdx = s.freeIdx := rfl
@[simp] theorem State.modFan_imageCounts (f : Nat) (g : Fan → Fan) : (s.modFan f g).imageCounts = s.imageCounts := rfl
@[simp] theorem State.modFan_intake (f : Nat) (g : Fan → Fan) : (s.modFan f g).intake = s.intake := rfl
@[simp] theorem State.modFan_active (f : Nat) (g : Fan → Fan) : (s.modFan f g).active = s.active := rfl
@[simp] theorem State.modFan_jWrite (f : Nat) (g : Fan → Fan) : (s.modFan f g).jWrite = s.jWrite := rfl
@[simp] theorem State.modFan_jGap (f : Nat) (g : Fan → Fan) : (s.modFan f g).jGap = s.jGap := rfl
@[simp] theorem State.modFan_jSeq (f : Nat) (g : Fan → Fan) : (s.modFan f g).jSeq = s.jSeq := rfl
@[simp] theorem State.modFan_sigA (f : Nat) (g : Fan → Fan) : (s.modFan f g).sigA = s.sigA := rfl
@[simp] theorem State.modFan_sigB (f : Nat) (g : Fan → Fan) : (s.modFan f g).sigB = s.sigB := rfl
@[simp] theorem State.modFan_ring (f : Nat) (g : Fan → Fan) : (s.modFan f g).ring = s.ring := rfl
@[simp] theorem State.modFan_fold (f : Nat) (g : Fan → Fan) : (s.modFan f g).fold = s.fold := rfl
@[simp] theorem State.modFan_enrol (f : Nat) (g : Fan → Fan) : (s.modFan f g).enrol = s.enrol := rfl
@[simp] theorem State.modFan_stations (f : Nat) (g : Fan → Fan) : (s.modFan f g).stations = s.stations := rfl
@[simp] theorem State.modFan_channels (f : Nat) (g : Fan → Fan) : (s.modFan f g).channels = s.channels := rfl
@[simp] theorem State.modFan_zones (f : Nat) (g : Fan → Fan) : (s.modFan f g).zones = s.zones := rfl
@[simp] theorem State.modFan_tunnelLevel (f : Nat) (g : Fan → Fan) : (s.modFan f g).tunnelLevel = s.tunnelLevel := rfl
@[simp] theorem State.modFan_fans (f : Nat) (g : Fan → Fan) :
    (s.modFan f g).fans = s.fans.modify f (Option.map g) := rfl
@[simp] theorem State.modFan_feeders (f : Nat) (g : Fan → Fan) : (s.modFan f g).feeders = s.feeders := rfl
@[simp] theorem State.modFan_doors (f : Nat) (g : Fan → Fan) : (s.modFan f g).doors = s.doors := rfl
@[simp] theorem State.modFan_passageWritten (f : Nat) (g : Fan → Fan) :
    (s.modFan f g).passageWritten = s.passageWritten := rfl
@[simp] theorem State.modFan_plan (f : Nat) (g : Fan → Fan) : (s.modFan f g).plan = s.plan := rfl
@[simp] theorem State.modFan_params (f : Nat) (g : Fan → Fan) : (s.modFan f g).params = s.params := rfl
@[simp] theorem State.modFan_secondsOwed (f : Nat) (g : Fan → Fan) : (s.modFan f g).secondsOwed = s.secondsOwed := rfl
@[simp] theorem State.modFan_events (f : Nat) (g : Fan → Fan) : (s.modFan f g).events = s.events := rfl

/-! ## State.modChannel -/

@[simp] theorem State.modChannel_pending (c : Nat) (g : Channel → Channel) :
    (s.modChannel c g).pending = s.pending := rfl
@[simp] theorem State.modChannel_clock (c : Nat) (g : Channel → Channel) : (s.modChannel c g).clock = s.clock := rfl
@[simp] theorem State.modChannel_mem (c : Nat) (g : Channel → Channel) : (s.modChannel c g).mem = s.mem := rfl
@[simp] theorem State.modChannel_attn (c : Nat) (g : Channel → Channel) : (s.modChannel c g).attn = s.attn := rfl
@[simp] theorem State.modChannel_mask (c : Nat) (g : Channel → Channel) : (s.modChannel c g).mask = s.mask := rfl
@[simp] theorem State.modChannel_formatting (c : Nat) (g : Channel → Channel) :
    (s.modChannel c g).formatting = s.formatting := rfl
@[simp] theorem State.modChannel_formatStores (c : Nat) (g : Channel → Channel) :
    (s.modChannel c g).formatStores = s.formatStores := rfl
@[simp] theorem State.modChannel_freeIdx (c : Nat) (g : Channel → Channel) :
    (s.modChannel c g).freeIdx = s.freeIdx := rfl
@[simp] theorem State.modChannel_imageCounts (c : Nat) (g : Channel → Channel) :
    (s.modChannel c g).imageCounts = s.imageCounts := rfl
@[simp] theorem State.modChannel_intake (c : Nat) (g : Channel → Channel) :
    (s.modChannel c g).intake = s.intake := rfl
@[simp] theorem State.modChannel_active (c : Nat) (g : Channel → Channel) :
    (s.modChannel c g).active = s.active := rfl
@[simp] theorem State.modChannel_jWrite (c : Nat) (g : Channel → Channel) :
    (s.modChannel c g).jWrite = s.jWrite := rfl
@[simp] theorem State.modChannel_jGap (c : Nat) (g : Channel → Channel) : (s.modChannel c g).jGap = s.jGap := rfl
@[simp] theorem State.modChannel_jSeq (c : Nat) (g : Channel → Channel) : (s.modChannel c g).jSeq = s.jSeq := rfl
@[simp] theorem State.modChannel_sigA (c : Nat) (g : Channel → Channel) : (s.modChannel c g).sigA = s.sigA := rfl
@[simp] theorem State.modChannel_sigB (c : Nat) (g : Channel → Channel) : (s.modChannel c g).sigB = s.sigB := rfl
@[simp] theorem State.modChannel_ring (c : Nat) (g : Channel → Channel) : (s.modChannel c g).ring = s.ring := rfl
@[simp] theorem State.modChannel_fold (c : Nat) (g : Channel → Channel) : (s.modChannel c g).fold = s.fold := rfl
@[simp] theorem State.modChannel_enrol (c : Nat) (g : Channel → Channel) : (s.modChannel c g).enrol = s.enrol := rfl
@[simp] theorem State.modChannel_stations (c : Nat) (g : Channel → Channel) :
    (s.modChannel c g).stations = s.stations := rfl
@[simp] theorem State.modChannel_channels (c : Nat) (g : Channel → Channel) :
    (s.modChannel c g).channels = s.channels.modify c (Option.map g) := rfl
@[simp] theorem State.modChannel_zones (c : Nat) (g : Channel → Channel) : (s.modChannel c g).zones = s.zones := rfl
@[simp] theorem State.modChannel_tunnelLevel (c : Nat) (g : Channel → Channel) :
    (s.modChannel c g).tunnelLevel = s.tunnelLevel := rfl
@[simp] theorem State.modChannel_fans (c : Nat) (g : Channel → Channel) : (s.modChannel c g).fans = s.fans := rfl
@[simp] theorem State.modChannel_feeders (c : Nat) (g : Channel → Channel) :
    (s.modChannel c g).feeders = s.feeders := rfl
@[simp] theorem State.modChannel_doors (c : Nat) (g : Channel → Channel) : (s.modChannel c g).doors = s.doors := rfl
@[simp] theorem State.modChannel_passageWritten (c : Nat) (g : Channel → Channel) :
    (s.modChannel c g).passageWritten = s.passageWritten := rfl
@[simp] theorem State.modChannel_plan (c : Nat) (g : Channel → Channel) : (s.modChannel c g).plan = s.plan := rfl
@[simp] theorem State.modChannel_params (c : Nat) (g : Channel → Channel) :
    (s.modChannel c g).params = s.params := rfl
@[simp] theorem State.modChannel_secondsOwed (c : Nat) (g : Channel → Channel) :
    (s.modChannel c g).secondsOwed = s.secondsOwed := rfl
@[simp] theorem State.modChannel_events (c : Nat) (g : Channel → Channel) :
    (s.modChannel c g).events = s.events := rfl

/-! ## State.modDoor -/

@[simp] theorem State.modDoor_pending (d : Nat) (g : Door → Door) : (s.modDoor d g).pending = s.pending := rfl
@[simp] theorem State.modDoor_clock (d : Nat) (g : Door → Door) : (s.modDoor d g).clock = s.clock := rfl
@[simp] theorem State.modDoor_mem (d : Nat) (g : Door → Door) : (s.modDoor d g).mem = s.mem := rfl
@[simp] theorem State.modDoor_attn (d : Nat) (g : Door → Door) : (s.modDoor d g).attn = s.attn := rfl
@[simp] theorem State.modDoor_mask (d : Nat) (g : Door → Door) : (s.modDoor d g).mask = s.mask := rfl
@[simp] theorem State.modDoor_formatting (d : Nat) (g : Door → Door) :
    (s.modDoor d g).formatting = s.formatting := rfl
@[simp] theorem State.modDoor_formatStores (d : Nat) (g : Door → Door) :
    (s.modDoor d g).formatStores = s.formatStores := rfl
@[simp] theorem State.modDoor_freeIdx (d : Nat) (g : Door → Door) : (s.modDoor d g).freeIdx = s.freeIdx := rfl
@[simp] theorem State.modDoor_imageCounts (d : Nat) (g : Door → Door) :
    (s.modDoor d g).imageCounts = s.imageCounts := rfl
@[simp] theorem State.modDoor_intake (d : Nat) (g : Door → Door) : (s.modDoor d g).intake = s.intake := rfl
@[simp] theorem State.modDoor_active (d : Nat) (g : Door → Door) : (s.modDoor d g).active = s.active := rfl
@[simp] theorem State.modDoor_jWrite (d : Nat) (g : Door → Door) : (s.modDoor d g).jWrite = s.jWrite := rfl
@[simp] theorem State.modDoor_jGap (d : Nat) (g : Door → Door) : (s.modDoor d g).jGap = s.jGap := rfl
@[simp] theorem State.modDoor_jSeq (d : Nat) (g : Door → Door) : (s.modDoor d g).jSeq = s.jSeq := rfl
@[simp] theorem State.modDoor_sigA (d : Nat) (g : Door → Door) : (s.modDoor d g).sigA = s.sigA := rfl
@[simp] theorem State.modDoor_sigB (d : Nat) (g : Door → Door) : (s.modDoor d g).sigB = s.sigB := rfl
@[simp] theorem State.modDoor_ring (d : Nat) (g : Door → Door) : (s.modDoor d g).ring = s.ring := rfl
@[simp] theorem State.modDoor_fold (d : Nat) (g : Door → Door) : (s.modDoor d g).fold = s.fold := rfl
@[simp] theorem State.modDoor_enrol (d : Nat) (g : Door → Door) : (s.modDoor d g).enrol = s.enrol := rfl
@[simp] theorem State.modDoor_stations (d : Nat) (g : Door → Door) : (s.modDoor d g).stations = s.stations := rfl
@[simp] theorem State.modDoor_channels (d : Nat) (g : Door → Door) : (s.modDoor d g).channels = s.channels := rfl
@[simp] theorem State.modDoor_zones (d : Nat) (g : Door → Door) : (s.modDoor d g).zones = s.zones := rfl
@[simp] theorem State.modDoor_tunnelLevel (d : Nat) (g : Door → Door) :
    (s.modDoor d g).tunnelLevel = s.tunnelLevel := rfl
@[simp] theorem State.modDoor_fans (d : Nat) (g : Door → Door) : (s.modDoor d g).fans = s.fans := rfl
@[simp] theorem State.modDoor_feeders (d : Nat) (g : Door → Door) : (s.modDoor d g).feeders = s.feeders := rfl
@[simp] theorem State.modDoor_doors (d : Nat) (g : Door → Door) :
    (s.modDoor d g).doors = s.doors.modify d (Option.map g) := rfl
@[simp] theorem State.modDoor_passageWritten (d : Nat) (g : Door → Door) :
    (s.modDoor d g).passageWritten = s.passageWritten := rfl
@[simp] theorem State.modDoor_plan (d : Nat) (g : Door → Door) : (s.modDoor d g).plan = s.plan := rfl
@[simp] theorem State.modDoor_params (d : Nat) (g : Door → Door) : (s.modDoor d g).params = s.params := rfl
@[simp] theorem State.modDoor_secondsOwed (d : Nat) (g : Door → Door) :
    (s.modDoor d g).secondsOwed = s.secondsOwed := rfl
@[simp] theorem State.modDoor_events (d : Nat) (g : Door → Door) :
    (s.modDoor d g).events = s.events := rfl

/-! ## State.modZone -/

@[simp] theorem State.modZone_pending (z : Nat) (g : Zone → Zone) : (s.modZone z g).pending = s.pending := rfl
@[simp] theorem State.modZone_clock (z : Nat) (g : Zone → Zone) : (s.modZone z g).clock = s.clock := rfl
@[simp] theorem State.modZone_mem (z : Nat) (g : Zone → Zone) : (s.modZone z g).mem = s.mem := rfl
@[simp] theorem State.modZone_attn (z : Nat) (g : Zone → Zone) : (s.modZone z g).attn = s.attn := rfl
@[simp] theorem State.modZone_mask (z : Nat) (g : Zone → Zone) : (s.modZone z g).mask = s.mask := rfl
@[simp] theorem State.modZone_formatting (z : Nat) (g : Zone → Zone) :
    (s.modZone z g).formatting = s.formatting := rfl
@[simp] theorem State.modZone_formatStores (z : Nat) (g : Zone → Zone) :
    (s.modZone z g).formatStores = s.formatStores := rfl
@[simp] theorem State.modZone_freeIdx (z : Nat) (g : Zone → Zone) : (s.modZone z g).freeIdx = s.freeIdx := rfl
@[simp] theorem State.modZone_imageCounts (z : Nat) (g : Zone → Zone) :
    (s.modZone z g).imageCounts = s.imageCounts := rfl
@[simp] theorem State.modZone_intake (z : Nat) (g : Zone → Zone) : (s.modZone z g).intake = s.intake := rfl
@[simp] theorem State.modZone_active (z : Nat) (g : Zone → Zone) : (s.modZone z g).active = s.active := rfl
@[simp] theorem State.modZone_jWrite (z : Nat) (g : Zone → Zone) : (s.modZone z g).jWrite = s.jWrite := rfl
@[simp] theorem State.modZone_jGap (z : Nat) (g : Zone → Zone) : (s.modZone z g).jGap = s.jGap := rfl
@[simp] theorem State.modZone_jSeq (z : Nat) (g : Zone → Zone) : (s.modZone z g).jSeq = s.jSeq := rfl
@[simp] theorem State.modZone_sigA (z : Nat) (g : Zone → Zone) : (s.modZone z g).sigA = s.sigA := rfl
@[simp] theorem State.modZone_sigB (z : Nat) (g : Zone → Zone) : (s.modZone z g).sigB = s.sigB := rfl
@[simp] theorem State.modZone_ring (z : Nat) (g : Zone → Zone) : (s.modZone z g).ring = s.ring := rfl
@[simp] theorem State.modZone_fold (z : Nat) (g : Zone → Zone) : (s.modZone z g).fold = s.fold := rfl
@[simp] theorem State.modZone_enrol (z : Nat) (g : Zone → Zone) : (s.modZone z g).enrol = s.enrol := rfl
@[simp] theorem State.modZone_stations (z : Nat) (g : Zone → Zone) : (s.modZone z g).stations = s.stations := rfl
@[simp] theorem State.modZone_channels (z : Nat) (g : Zone → Zone) : (s.modZone z g).channels = s.channels := rfl
@[simp] theorem State.modZone_zones (z : Nat) (g : Zone → Zone) : (s.modZone z g).zones = s.zones.modify z g := rfl
@[simp] theorem State.modZone_tunnelLevel (z : Nat) (g : Zone → Zone) :
    (s.modZone z g).tunnelLevel = s.tunnelLevel := rfl
@[simp] theorem State.modZone_fans (z : Nat) (g : Zone → Zone) : (s.modZone z g).fans = s.fans := rfl
@[simp] theorem State.modZone_feeders (z : Nat) (g : Zone → Zone) : (s.modZone z g).feeders = s.feeders := rfl
@[simp] theorem State.modZone_doors (z : Nat) (g : Zone → Zone) : (s.modZone z g).doors = s.doors := rfl
@[simp] theorem State.modZone_passageWritten (z : Nat) (g : Zone → Zone) :
    (s.modZone z g).passageWritten = s.passageWritten := rfl
@[simp] theorem State.modZone_plan (z : Nat) (g : Zone → Zone) : (s.modZone z g).plan = s.plan := rfl
@[simp] theorem State.modZone_params (z : Nat) (g : Zone → Zone) : (s.modZone z g).params = s.params := rfl
@[simp] theorem State.modZone_secondsOwed (z : Nat) (g : Zone → Zone) :
    (s.modZone z g).secondsOwed = s.secondsOwed := rfl
@[simp] theorem State.modZone_events (z : Nat) (g : Zone → Zone) :
    (s.modZone z g).events = s.events := rfl

/-! ## State.modFeeder -/

@[simp] theorem State.modFeeder_pending (k : Nat) (g : Feeder → Feeder) : (s.modFeeder k g).pending = s.pending := rfl
@[simp] theorem State.modFeeder_clock (k : Nat) (g : Feeder → Feeder) : (s.modFeeder k g).clock = s.clock := rfl
@[simp] theorem State.modFeeder_mem (k : Nat) (g : Feeder → Feeder) : (s.modFeeder k g).mem = s.mem := rfl
@[simp] theorem State.modFeeder_attn (k : Nat) (g : Feeder → Feeder) : (s.modFeeder k g).attn = s.attn := rfl
@[simp] theorem State.modFeeder_mask (k : Nat) (g : Feeder → Feeder) : (s.modFeeder k g).mask = s.mask := rfl
@[simp] theorem State.modFeeder_formatting (k : Nat) (g : Feeder → Feeder) :
    (s.modFeeder k g).formatting = s.formatting := rfl
@[simp] theorem State.modFeeder_formatStores (k : Nat) (g : Feeder → Feeder) :
    (s.modFeeder k g).formatStores = s.formatStores := rfl
@[simp] theorem State.modFeeder_freeIdx (k : Nat) (g : Feeder → Feeder) : (s.modFeeder k g).freeIdx = s.freeIdx := rfl
@[simp] theorem State.modFeeder_imageCounts (k : Nat) (g : Feeder → Feeder) :
    (s.modFeeder k g).imageCounts = s.imageCounts := rfl
@[simp] theorem State.modFeeder_intake (k : Nat) (g : Feeder → Feeder) : (s.modFeeder k g).intake = s.intake := rfl
@[simp] theorem State.modFeeder_active (k : Nat) (g : Feeder → Feeder) : (s.modFeeder k g).active = s.active := rfl
@[simp] theorem State.modFeeder_jWrite (k : Nat) (g : Feeder → Feeder) : (s.modFeeder k g).jWrite = s.jWrite := rfl
@[simp] theorem State.modFeeder_jGap (k : Nat) (g : Feeder → Feeder) : (s.modFeeder k g).jGap = s.jGap := rfl
@[simp] theorem State.modFeeder_jSeq (k : Nat) (g : Feeder → Feeder) : (s.modFeeder k g).jSeq = s.jSeq := rfl
@[simp] theorem State.modFeeder_sigA (k : Nat) (g : Feeder → Feeder) : (s.modFeeder k g).sigA = s.sigA := rfl
@[simp] theorem State.modFeeder_sigB (k : Nat) (g : Feeder → Feeder) : (s.modFeeder k g).sigB = s.sigB := rfl
@[simp] theorem State.modFeeder_ring (k : Nat) (g : Feeder → Feeder) : (s.modFeeder k g).ring = s.ring := rfl
@[simp] theorem State.modFeeder_fold (k : Nat) (g : Feeder → Feeder) : (s.modFeeder k g).fold = s.fold := rfl
@[simp] theorem State.modFeeder_enrol (k : Nat) (g : Feeder → Feeder) : (s.modFeeder k g).enrol = s.enrol := rfl
@[simp] theorem State.modFeeder_stations (k : Nat) (g : Feeder → Feeder) :
    (s.modFeeder k g).stations = s.stations := rfl
@[simp] theorem State.modFeeder_channels (k : Nat) (g : Feeder → Feeder) :
    (s.modFeeder k g).channels = s.channels := rfl
@[simp] theorem State.modFeeder_zones (k : Nat) (g : Feeder → Feeder) : (s.modFeeder k g).zones = s.zones := rfl
@[simp] theorem State.modFeeder_tunnelLevel (k : Nat) (g : Feeder → Feeder) :
    (s.modFeeder k g).tunnelLevel = s.tunnelLevel := rfl
@[simp] theorem State.modFeeder_fans (k : Nat) (g : Feeder → Feeder) : (s.modFeeder k g).fans = s.fans := rfl
@[simp] theorem State.modFeeder_feeders (k : Nat) (g : Feeder → Feeder) :
    (s.modFeeder k g).feeders = s.feeders.modify k g := rfl
@[simp] theorem State.modFeeder_doors (k : Nat) (g : Feeder → Feeder) : (s.modFeeder k g).doors = s.doors := rfl
@[simp] theorem State.modFeeder_passageWritten (k : Nat) (g : Feeder → Feeder) :
    (s.modFeeder k g).passageWritten = s.passageWritten := rfl
@[simp] theorem State.modFeeder_plan (k : Nat) (g : Feeder → Feeder) : (s.modFeeder k g).plan = s.plan := rfl
@[simp] theorem State.modFeeder_params (k : Nat) (g : Feeder → Feeder) : (s.modFeeder k g).params = s.params := rfl
@[simp] theorem State.modFeeder_secondsOwed (k : Nat) (g : Feeder → Feeder) :
    (s.modFeeder k g).secondsOwed = s.secondsOwed := rfl
@[simp] theorem State.modFeeder_events (k : Nat) (g : Feeder → Feeder) :
    (s.modFeeder k g).events = s.events := rfl

/-! ## State.modRing -/

@[simp] theorem State.modRing_pending (g : Ring → Ring) : (s.modRing g).pending = s.pending := rfl
@[simp] theorem State.modRing_clock (g : Ring → Ring) : (s.modRing g).clock = s.clock := rfl
@[simp] theorem State.modRing_mem (g : Ring → Ring) : (s.modRing g).mem = s.mem := rfl
@[simp] theorem State.modRing_attn (g : Ring → Ring) : (s.modRing g).attn = s.attn := rfl
@[simp] theorem State.modRing_mask (g : Ring → Ring) : (s.modRing g).mask = s.mask := rfl
@[simp] theorem State.modRing_formatting (g : Ring → Ring) : (s.modRing g).formatting = s.formatting := rfl
@[simp] theorem State.modRing_formatStores (g : Ring → Ring) : (s.modRing g).formatStores = s.formatStores := rfl
@[simp] theorem State.modRing_freeIdx (g : Ring → Ring) : (s.modRing g).freeIdx = s.freeIdx := rfl
@[simp] theorem State.modRing_imageCounts (g : Ring → Ring) : (s.modRing g).imageCounts = s.imageCounts := rfl
@[simp] theorem State.modRing_intake (g : Ring → Ring) : (s.modRing g).intake = s.intake := rfl
@[simp] theorem State.modRing_active (g : Ring → Ring) : (s.modRing g).active = s.active := rfl
@[simp] theorem State.modRing_jWrite (g : Ring → Ring) : (s.modRing g).jWrite = s.jWrite := rfl
@[simp] theorem State.modRing_jGap (g : Ring → Ring) : (s.modRing g).jGap = s.jGap := rfl
@[simp] theorem State.modRing_jSeq (g : Ring → Ring) : (s.modRing g).jSeq = s.jSeq := rfl
@[simp] theorem State.modRing_sigA (g : Ring → Ring) : (s.modRing g).sigA = s.sigA := rfl
@[simp] theorem State.modRing_sigB (g : Ring → Ring) : (s.modRing g).sigB = s.sigB := rfl
@[simp] theorem State.modRing_ring (g : Ring → Ring) : (s.modRing g).ring = g s.ring := rfl
@[simp] theorem State.modRing_fold (g : Ring → Ring) : (s.modRing g).fold = s.fold := rfl
@[simp] theorem State.modRing_enrol (g : Ring → Ring) : (s.modRing g).enrol = s.enrol := rfl
@[simp] theorem State.modRing_stations (g : Ring → Ring) : (s.modRing g).stations = s.stations := rfl
@[simp] theorem State.modRing_channels (g : Ring → Ring) : (s.modRing g).channels = s.channels := rfl
@[simp] theorem State.modRing_zones (g : Ring → Ring) : (s.modRing g).zones = s.zones := rfl
@[simp] theorem State.modRing_tunnelLevel (g : Ring → Ring) : (s.modRing g).tunnelLevel = s.tunnelLevel := rfl
@[simp] theorem State.modRing_fans (g : Ring → Ring) : (s.modRing g).fans = s.fans := rfl
@[simp] theorem State.modRing_feeders (g : Ring → Ring) : (s.modRing g).feeders = s.feeders := rfl
@[simp] theorem State.modRing_doors (g : Ring → Ring) : (s.modRing g).doors = s.doors := rfl
@[simp] theorem State.modRing_passageWritten (g : Ring → Ring) :
    (s.modRing g).passageWritten = s.passageWritten := rfl
@[simp] theorem State.modRing_plan (g : Ring → Ring) : (s.modRing g).plan = s.plan := rfl
@[simp] theorem State.modRing_params (g : Ring → Ring) : (s.modRing g).params = s.params := rfl
@[simp] theorem State.modRing_secondsOwed (g : Ring → Ring) : (s.modRing g).secondsOwed = s.secondsOwed := rfl
@[simp] theorem State.modRing_events (g : Ring → Ring) : (s.modRing g).events = s.events := rfl

/-! ## State.modFold -/

@[simp] theorem State.modFold_pending (g : Fold → Fold) : (s.modFold g).pending = s.pending := rfl
@[simp] theorem State.modFold_clock (g : Fold → Fold) : (s.modFold g).clock = s.clock := rfl
@[simp] theorem State.modFold_mem (g : Fold → Fold) : (s.modFold g).mem = s.mem := rfl
@[simp] theorem State.modFold_attn (g : Fold → Fold) : (s.modFold g).attn = s.attn := rfl
@[simp] theorem State.modFold_mask (g : Fold → Fold) : (s.modFold g).mask = s.mask := rfl
@[simp] theorem State.modFold_formatting (g : Fold → Fold) : (s.modFold g).formatting = s.formatting := rfl
@[simp] theorem State.modFold_formatStores (g : Fold → Fold) : (s.modFold g).formatStores = s.formatStores := rfl
@[simp] theorem State.modFold_freeIdx (g : Fold → Fold) : (s.modFold g).freeIdx = s.freeIdx := rfl
@[simp] theorem State.modFold_imageCounts (g : Fold → Fold) : (s.modFold g).imageCounts = s.imageCounts := rfl
@[simp] theorem State.modFold_intake (g : Fold → Fold) : (s.modFold g).intake = s.intake := rfl
@[simp] theorem State.modFold_active (g : Fold → Fold) : (s.modFold g).active = s.active := rfl
@[simp] theorem State.modFold_jWrite (g : Fold → Fold) : (s.modFold g).jWrite = s.jWrite := rfl
@[simp] theorem State.modFold_jGap (g : Fold → Fold) : (s.modFold g).jGap = s.jGap := rfl
@[simp] theorem State.modFold_jSeq (g : Fold → Fold) : (s.modFold g).jSeq = s.jSeq := rfl
@[simp] theorem State.modFold_sigA (g : Fold → Fold) : (s.modFold g).sigA = s.sigA := rfl
@[simp] theorem State.modFold_sigB (g : Fold → Fold) : (s.modFold g).sigB = s.sigB := rfl
@[simp] theorem State.modFold_ring (g : Fold → Fold) : (s.modFold g).ring = s.ring := rfl
@[simp] theorem State.modFold_fold (g : Fold → Fold) : (s.modFold g).fold = g s.fold := rfl
@[simp] theorem State.modFold_enrol (g : Fold → Fold) : (s.modFold g).enrol = s.enrol := rfl
@[simp] theorem State.modFold_stations (g : Fold → Fold) : (s.modFold g).stations = s.stations := rfl
@[simp] theorem State.modFold_channels (g : Fold → Fold) : (s.modFold g).channels = s.channels := rfl
@[simp] theorem State.modFold_zones (g : Fold → Fold) : (s.modFold g).zones = s.zones := rfl
@[simp] theorem State.modFold_tunnelLevel (g : Fold → Fold) : (s.modFold g).tunnelLevel = s.tunnelLevel := rfl
@[simp] theorem State.modFold_fans (g : Fold → Fold) : (s.modFold g).fans = s.fans := rfl
@[simp] theorem State.modFold_feeders (g : Fold → Fold) : (s.modFold g).feeders = s.feeders := rfl
@[simp] theorem State.modFold_doors (g : Fold → Fold) : (s.modFold g).doors = s.doors := rfl
@[simp] theorem State.modFold_passageWritten (g : Fold → Fold) :
    (s.modFold g).passageWritten = s.passageWritten := rfl
@[simp] theorem State.modFold_plan (g : Fold → Fold) : (s.modFold g).plan = s.plan := rfl
@[simp] theorem State.modFold_params (g : Fold → Fold) : (s.modFold g).params = s.params := rfl
@[simp] theorem State.modFold_secondsOwed (g : Fold → Fold) : (s.modFold g).secondsOwed = s.secondsOwed := rfl
@[simp] theorem State.modFold_events (g : Fold → Fold) : (s.modFold g).events = s.events := rfl

/-! ## State.modPlan -/

@[simp] theorem State.modPlan_pending (g : Planner → Planner) : (s.modPlan g).pending = s.pending := rfl
@[simp] theorem State.modPlan_clock (g : Planner → Planner) : (s.modPlan g).clock = s.clock := rfl
@[simp] theorem State.modPlan_mem (g : Planner → Planner) : (s.modPlan g).mem = s.mem := rfl
@[simp] theorem State.modPlan_attn (g : Planner → Planner) : (s.modPlan g).attn = s.attn := rfl
@[simp] theorem State.modPlan_mask (g : Planner → Planner) : (s.modPlan g).mask = s.mask := rfl
@[simp] theorem State.modPlan_formatting (g : Planner → Planner) : (s.modPlan g).formatting = s.formatting := rfl
@[simp] theorem State.modPlan_formatStores (g : Planner → Planner) :
    (s.modPlan g).formatStores = s.formatStores := rfl
@[simp] theorem State.modPlan_freeIdx (g : Planner → Planner) : (s.modPlan g).freeIdx = s.freeIdx := rfl
@[simp] theorem State.modPlan_imageCounts (g : Planner → Planner) : (s.modPlan g).imageCounts = s.imageCounts := rfl
@[simp] theorem State.modPlan_intake (g : Planner → Planner) : (s.modPlan g).intake = s.intake := rfl
@[simp] theorem State.modPlan_active (g : Planner → Planner) : (s.modPlan g).active = s.active := rfl
@[simp] theorem State.modPlan_jWrite (g : Planner → Planner) : (s.modPlan g).jWrite = s.jWrite := rfl
@[simp] theorem State.modPlan_jGap (g : Planner → Planner) : (s.modPlan g).jGap = s.jGap := rfl
@[simp] theorem State.modPlan_jSeq (g : Planner → Planner) : (s.modPlan g).jSeq = s.jSeq := rfl
@[simp] theorem State.modPlan_sigA (g : Planner → Planner) : (s.modPlan g).sigA = s.sigA := rfl
@[simp] theorem State.modPlan_sigB (g : Planner → Planner) : (s.modPlan g).sigB = s.sigB := rfl
@[simp] theorem State.modPlan_ring (g : Planner → Planner) : (s.modPlan g).ring = s.ring := rfl
@[simp] theorem State.modPlan_fold (g : Planner → Planner) : (s.modPlan g).fold = s.fold := rfl
@[simp] theorem State.modPlan_enrol (g : Planner → Planner) : (s.modPlan g).enrol = s.enrol := rfl
@[simp] theorem State.modPlan_stations (g : Planner → Planner) : (s.modPlan g).stations = s.stations := rfl
@[simp] theorem State.modPlan_channels (g : Planner → Planner) : (s.modPlan g).channels = s.channels := rfl
@[simp] theorem State.modPlan_zones (g : Planner → Planner) : (s.modPlan g).zones = s.zones := rfl
@[simp] theorem State.modPlan_tunnelLevel (g : Planner → Planner) : (s.modPlan g).tunnelLevel = s.tunnelLevel := rfl
@[simp] theorem State.modPlan_fans (g : Planner → Planner) : (s.modPlan g).fans = s.fans := rfl
@[simp] theorem State.modPlan_feeders (g : Planner → Planner) : (s.modPlan g).feeders = s.feeders := rfl
@[simp] theorem State.modPlan_doors (g : Planner → Planner) : (s.modPlan g).doors = s.doors := rfl
@[simp] theorem State.modPlan_passageWritten (g : Planner → Planner) :
    (s.modPlan g).passageWritten = s.passageWritten := rfl
@[simp] theorem State.modPlan_plan (g : Planner → Planner) : (s.modPlan g).plan = g s.plan := rfl
@[simp] theorem State.modPlan_params (g : Planner → Planner) : (s.modPlan g).params = s.params := rfl
@[simp] theorem State.modPlan_secondsOwed (g : Planner → Planner) : (s.modPlan g).secondsOwed = s.secondsOwed := rfl
@[simp] theorem State.modPlan_events (g : Planner → Planner) : (s.modPlan g).events = s.events := rfl

/-! ## State.setWork -/

@[simp] theorem State.setWork_pending (slot : Nat) (w : Work) : (s.setWork slot w).pending = s.pending := rfl
@[simp] theorem State.setWork_clock (slot : Nat) (w : Work) : (s.setWork slot w).clock = s.clock := rfl
@[simp] theorem State.setWork_mem (slot : Nat) (w : Work) : (s.setWork slot w).mem = s.mem := rfl
@[simp] theorem State.setWork_attn (slot : Nat) (w : Work) : (s.setWork slot w).attn = s.attn := rfl
@[simp] theorem State.setWork_mask (slot : Nat) (w : Work) : (s.setWork slot w).mask = s.mask := rfl
@[simp] theorem State.setWork_formatting (slot : Nat) (w : Work) : (s.setWork slot w).formatting = s.formatting := rfl
@[simp] theorem State.setWork_formatStores (slot : Nat) (w : Work) :
    (s.setWork slot w).formatStores = s.formatStores := rfl
@[simp] theorem State.setWork_freeIdx (slot : Nat) (w : Work) : (s.setWork slot w).freeIdx = s.freeIdx := rfl
@[simp] theorem State.setWork_imageCounts (slot : Nat) (w : Work) :
    (s.setWork slot w).imageCounts = s.imageCounts := rfl
@[simp] theorem State.setWork_intake (slot : Nat) (w : Work) : (s.setWork slot w).intake = s.intake := rfl
@[simp] theorem State.setWork_active (slot : Nat) (w : Work) :
    (s.setWork slot w).active = s.active.map fun o => if o.slot = slot then { o with work := w } else o := rfl
@[simp] theorem State.setWork_jWrite (slot : Nat) (w : Work) : (s.setWork slot w).jWrite = s.jWrite := rfl
@[simp] theorem State.setWork_jGap (slot : Nat) (w : Work) : (s.setWork slot w).jGap = s.jGap := rfl
@[simp] theorem State.setWork_jSeq (slot : Nat) (w : Work) : (s.setWork slot w).jSeq = s.jSeq := rfl
@[simp] theorem State.setWork_sigA (slot : Nat) (w : Work) : (s.setWork slot w).sigA = s.sigA := rfl
@[simp] theorem State.setWork_sigB (slot : Nat) (w : Work) : (s.setWork slot w).sigB = s.sigB := rfl
@[simp] theorem State.setWork_ring (slot : Nat) (w : Work) : (s.setWork slot w).ring = s.ring := rfl
@[simp] theorem State.setWork_fold (slot : Nat) (w : Work) : (s.setWork slot w).fold = s.fold := rfl
@[simp] theorem State.setWork_enrol (slot : Nat) (w : Work) : (s.setWork slot w).enrol = s.enrol := rfl
@[simp] theorem State.setWork_stations (slot : Nat) (w : Work) : (s.setWork slot w).stations = s.stations := rfl
@[simp] theorem State.setWork_channels (slot : Nat) (w : Work) : (s.setWork slot w).channels = s.channels := rfl
@[simp] theorem State.setWork_zones (slot : Nat) (w : Work) : (s.setWork slot w).zones = s.zones := rfl
@[simp] theorem State.setWork_tunnelLevel (slot : Nat) (w : Work) :
    (s.setWork slot w).tunnelLevel = s.tunnelLevel := rfl
@[simp] theorem State.setWork_fans (slot : Nat) (w : Work) : (s.setWork slot w).fans = s.fans := rfl
@[simp] theorem State.setWork_feeders (slot : Nat) (w : Work) : (s.setWork slot w).feeders = s.feeders := rfl
@[simp] theorem State.setWork_doors (slot : Nat) (w : Work) : (s.setWork slot w).doors = s.doors := rfl
@[simp] theorem State.setWork_passageWritten (slot : Nat) (w : Work) :
    (s.setWork slot w).passageWritten = s.passageWritten := rfl
@[simp] theorem State.setWork_plan (slot : Nat) (w : Work) : (s.setWork slot w).plan = s.plan := rfl
@[simp] theorem State.setWork_params (slot : Nat) (w : Work) : (s.setWork slot w).params = s.params := rfl
@[simp] theorem State.setWork_secondsOwed (slot : Nat) (w : Work) :
    (s.setWork slot w).secondsOwed = s.secondsOwed := rfl
@[simp] theorem State.setWork_events (slot : Nat) (w : Work) :
    (s.setWork slot w).events = s.events := rfl

/-! ## State.modStation -/

@[simp] theorem State.modStation_pending (st : Nat) (g : Station → Station) : (s.modStation st g).pending = s.pending := by
  unfold State.modStation; split <;> rfl
@[simp] theorem State.modStation_clock (st : Nat) (g : Station → Station) : (s.modStation st g).clock = s.clock := by
  unfold State.modStation; split <;> rfl
@[simp] theorem State.modStation_mem (st : Nat) (g : Station → Station) : (s.modStation st g).mem = s.mem := by
  unfold State.modStation; split <;> rfl
@[simp] theorem State.modStation_attn (st : Nat) (g : Station → Station) : (s.modStation st g).attn = s.attn := by
  unfold State.modStation; split <;> rfl
@[simp] theorem State.modStation_mask (st : Nat) (g : Station → Station) : (s.modStation st g).mask = s.mask := by
  unfold State.modStation; split <;> rfl
@[simp] theorem State.modStation_formatting (st : Nat) (g : Station → Station) : (s.modStation st g).formatting = s.formatting := by
  unfold State.modStation; split <;> rfl
@[simp] theorem State.modStation_formatStores (st : Nat) (g : Station → Station) : (s.modStation st g).formatStores = s.formatStores := by
  unfold State.modStation; split <;> rfl
@[simp] theorem State.modStation_freeIdx (st : Nat) (g : Station → Station) : (s.modStation st g).freeIdx = s.freeIdx := by
  unfold State.modStation; split <;> rfl
@[simp] theorem State.modStation_imageCounts (st : Nat) (g : Station → Station) : (s.modStation st g).imageCounts = s.imageCounts := by
  unfold State.modStation; split <;> rfl
@[simp] theorem State.modStation_intake (st : Nat) (g : Station → Station) : (s.modStation st g).intake = s.intake := by
  unfold State.modStation; split <;> rfl
@[simp] theorem State.modStation_active (st : Nat) (g : Station → Station) : (s.modStation st g).active = s.active := by
  unfold State.modStation; split <;> rfl
@[simp] theorem State.modStation_jWrite (st : Nat) (g : Station → Station) : (s.modStation st g).jWrite = s.jWrite := by
  unfold State.modStation; split <;> rfl
@[simp] theorem State.modStation_jGap (st : Nat) (g : Station → Station) : (s.modStation st g).jGap = s.jGap := by
  unfold State.modStation; split <;> rfl
@[simp] theorem State.modStation_jSeq (st : Nat) (g : Station → Station) : (s.modStation st g).jSeq = s.jSeq := by
  unfold State.modStation; split <;> rfl
@[simp] theorem State.modStation_sigA (st : Nat) (g : Station → Station) : (s.modStation st g).sigA = s.sigA := by
  unfold State.modStation; split <;> rfl
@[simp] theorem State.modStation_sigB (st : Nat) (g : Station → Station) : (s.modStation st g).sigB = s.sigB := by
  unfold State.modStation; split <;> rfl
@[simp] theorem State.modStation_ring (st : Nat) (g : Station → Station) : (s.modStation st g).ring = s.ring := by
  unfold State.modStation; split <;> rfl
@[simp] theorem State.modStation_fold (st : Nat) (g : Station → Station) : (s.modStation st g).fold = s.fold := by
  unfold State.modStation; split <;> rfl
@[simp] theorem State.modStation_enrol (st : Nat) (g : Station → Station) : (s.modStation st g).enrol = s.enrol := by
  unfold State.modStation; split <;> rfl
@[simp] theorem State.modStation_channels (st : Nat) (g : Station → Station) : (s.modStation st g).channels = s.channels := by
  unfold State.modStation; split <;> rfl
@[simp] theorem State.modStation_zones (st : Nat) (g : Station → Station) : (s.modStation st g).zones = s.zones := by
  unfold State.modStation; split <;> rfl
@[simp] theorem State.modStation_tunnelLevel (st : Nat) (g : Station → Station) : (s.modStation st g).tunnelLevel = s.tunnelLevel := by
  unfold State.modStation; split <;> rfl
@[simp] theorem State.modStation_fans (st : Nat) (g : Station → Station) : (s.modStation st g).fans = s.fans := by
  unfold State.modStation; split <;> rfl
@[simp] theorem State.modStation_feeders (st : Nat) (g : Station → Station) : (s.modStation st g).feeders = s.feeders := by
  unfold State.modStation; split <;> rfl
@[simp] theorem State.modStation_doors (st : Nat) (g : Station → Station) : (s.modStation st g).doors = s.doors := by
  unfold State.modStation; split <;> rfl
@[simp] theorem State.modStation_passageWritten (st : Nat) (g : Station → Station) : (s.modStation st g).passageWritten = s.passageWritten := by
  unfold State.modStation; split <;> rfl
@[simp] theorem State.modStation_plan (st : Nat) (g : Station → Station) : (s.modStation st g).plan = s.plan := by
  unfold State.modStation; split <;> rfl
@[simp] theorem State.modStation_params (st : Nat) (g : Station → Station) : (s.modStation st g).params = s.params := by
  unfold State.modStation; split <;> rfl
@[simp] theorem State.modStation_secondsOwed (st : Nat) (g : Station → Station) : (s.modStation st g).secondsOwed = s.secondsOwed := by
  unfold State.modStation; split <;> rfl
@[simp] theorem State.modStation_events (st : Nat) (g : Station → Station) : (s.modStation st g).events = s.events := by
  unfold State.modStation; split <;> rfl

/-! ## State.modEntry -/

@[simp] theorem State.modEntry_pending (st : Nat) (g : RingEntry → RingEntry) : (s.modEntry st g).pending = s.pending := by
  unfold State.modEntry; split <;> rfl
@[simp] theorem State.modEntry_clock (st : Nat) (g : RingEntry → RingEntry) : (s.modEntry st g).clock = s.clock := by
  unfold State.modEntry; split <;> rfl
@[simp] theorem State.modEntry_mem (st : Nat) (g : RingEntry → RingEntry) : (s.modEntry st g).mem = s.mem := by
  unfold State.modEntry; split <;> rfl
@[simp] theorem State.modEntry_attn (st : Nat) (g : RingEntry → RingEntry) : (s.modEntry st g).attn = s.attn := by
  unfold State.modEntry; split <;> rfl
@[simp] theorem State.modEntry_mask (st : Nat) (g : RingEntry → RingEntry) : (s.modEntry st g).mask = s.mask := by
  unfold State.modEntry; split <;> rfl
@[simp] theorem State.modEntry_formatting (st : Nat) (g : RingEntry → RingEntry) : (s.modEntry st g).formatting = s.formatting := by
  unfold State.modEntry; split <;> rfl
@[simp] theorem State.modEntry_formatStores (st : Nat) (g : RingEntry → RingEntry) : (s.modEntry st g).formatStores = s.formatStores := by
  unfold State.modEntry; split <;> rfl
@[simp] theorem State.modEntry_freeIdx (st : Nat) (g : RingEntry → RingEntry) : (s.modEntry st g).freeIdx = s.freeIdx := by
  unfold State.modEntry; split <;> rfl
@[simp] theorem State.modEntry_imageCounts (st : Nat) (g : RingEntry → RingEntry) : (s.modEntry st g).imageCounts = s.imageCounts := by
  unfold State.modEntry; split <;> rfl
@[simp] theorem State.modEntry_intake (st : Nat) (g : RingEntry → RingEntry) : (s.modEntry st g).intake = s.intake := by
  unfold State.modEntry; split <;> rfl
@[simp] theorem State.modEntry_active (st : Nat) (g : RingEntry → RingEntry) : (s.modEntry st g).active = s.active := by
  unfold State.modEntry; split <;> rfl
@[simp] theorem State.modEntry_jWrite (st : Nat) (g : RingEntry → RingEntry) : (s.modEntry st g).jWrite = s.jWrite := by
  unfold State.modEntry; split <;> rfl
@[simp] theorem State.modEntry_jGap (st : Nat) (g : RingEntry → RingEntry) : (s.modEntry st g).jGap = s.jGap := by
  unfold State.modEntry; split <;> rfl
@[simp] theorem State.modEntry_jSeq (st : Nat) (g : RingEntry → RingEntry) : (s.modEntry st g).jSeq = s.jSeq := by
  unfold State.modEntry; split <;> rfl
@[simp] theorem State.modEntry_sigA (st : Nat) (g : RingEntry → RingEntry) : (s.modEntry st g).sigA = s.sigA := by
  unfold State.modEntry; split <;> rfl
@[simp] theorem State.modEntry_sigB (st : Nat) (g : RingEntry → RingEntry) : (s.modEntry st g).sigB = s.sigB := by
  unfold State.modEntry; split <;> rfl
@[simp] theorem State.modEntry_fold (st : Nat) (g : RingEntry → RingEntry) : (s.modEntry st g).fold = s.fold := by
  unfold State.modEntry; split <;> rfl
@[simp] theorem State.modEntry_enrol (st : Nat) (g : RingEntry → RingEntry) : (s.modEntry st g).enrol = s.enrol := by
  unfold State.modEntry; split <;> rfl
@[simp] theorem State.modEntry_stations (st : Nat) (g : RingEntry → RingEntry) : (s.modEntry st g).stations = s.stations := by
  unfold State.modEntry; split <;> rfl
@[simp] theorem State.modEntry_channels (st : Nat) (g : RingEntry → RingEntry) : (s.modEntry st g).channels = s.channels := by
  unfold State.modEntry; split <;> rfl
@[simp] theorem State.modEntry_zones (st : Nat) (g : RingEntry → RingEntry) : (s.modEntry st g).zones = s.zones := by
  unfold State.modEntry; split <;> rfl
@[simp] theorem State.modEntry_tunnelLevel (st : Nat) (g : RingEntry → RingEntry) : (s.modEntry st g).tunnelLevel = s.tunnelLevel := by
  unfold State.modEntry; split <;> rfl
@[simp] theorem State.modEntry_fans (st : Nat) (g : RingEntry → RingEntry) : (s.modEntry st g).fans = s.fans := by
  unfold State.modEntry; split <;> rfl
@[simp] theorem State.modEntry_feeders (st : Nat) (g : RingEntry → RingEntry) : (s.modEntry st g).feeders = s.feeders := by
  unfold State.modEntry; split <;> rfl
@[simp] theorem State.modEntry_doors (st : Nat) (g : RingEntry → RingEntry) : (s.modEntry st g).doors = s.doors := by
  unfold State.modEntry; split <;> rfl
@[simp] theorem State.modEntry_passageWritten (st : Nat) (g : RingEntry → RingEntry) : (s.modEntry st g).passageWritten = s.passageWritten := by
  unfold State.modEntry; split <;> rfl
@[simp] theorem State.modEntry_plan (st : Nat) (g : RingEntry → RingEntry) : (s.modEntry st g).plan = s.plan := by
  unfold State.modEntry; split <;> rfl
@[simp] theorem State.modEntry_params (st : Nat) (g : RingEntry → RingEntry) : (s.modEntry st g).params = s.params := by
  unfold State.modEntry; split <;> rfl
@[simp] theorem State.modEntry_secondsOwed (st : Nat) (g : RingEntry → RingEntry) : (s.modEntry st g).secondsOwed = s.secondsOwed := by
  unfold State.modEntry; split <;> rfl
@[simp] theorem State.modEntry_events (st : Nat) (g : RingEntry → RingEntry) : (s.modEntry st g).events = s.events := by
  unfold State.modEntry; split <;> rfl

/-! ## State.setParam -/

@[simp] theorem State.setParam_pending (st : Nat) (x : Option Transfer) : (s.setParam st x).pending = s.pending := by
  unfold State.setParam; split <;> rfl
@[simp] theorem State.setParam_clock (st : Nat) (x : Option Transfer) : (s.setParam st x).clock = s.clock := by
  unfold State.setParam; split <;> rfl
@[simp] theorem State.setParam_mem (st : Nat) (x : Option Transfer) : (s.setParam st x).mem = s.mem := by
  unfold State.setParam; split <;> rfl
@[simp] theorem State.setParam_attn (st : Nat) (x : Option Transfer) : (s.setParam st x).attn = s.attn := by
  unfold State.setParam; split <;> rfl
@[simp] theorem State.setParam_mask (st : Nat) (x : Option Transfer) : (s.setParam st x).mask = s.mask := by
  unfold State.setParam; split <;> rfl
@[simp] theorem State.setParam_formatting (st : Nat) (x : Option Transfer) : (s.setParam st x).formatting = s.formatting := by
  unfold State.setParam; split <;> rfl
@[simp] theorem State.setParam_formatStores (st : Nat) (x : Option Transfer) : (s.setParam st x).formatStores = s.formatStores := by
  unfold State.setParam; split <;> rfl
@[simp] theorem State.setParam_freeIdx (st : Nat) (x : Option Transfer) : (s.setParam st x).freeIdx = s.freeIdx := by
  unfold State.setParam; split <;> rfl
@[simp] theorem State.setParam_imageCounts (st : Nat) (x : Option Transfer) : (s.setParam st x).imageCounts = s.imageCounts := by
  unfold State.setParam; split <;> rfl
@[simp] theorem State.setParam_intake (st : Nat) (x : Option Transfer) : (s.setParam st x).intake = s.intake := by
  unfold State.setParam; split <;> rfl
@[simp] theorem State.setParam_active (st : Nat) (x : Option Transfer) : (s.setParam st x).active = s.active := by
  unfold State.setParam; split <;> rfl
@[simp] theorem State.setParam_jWrite (st : Nat) (x : Option Transfer) : (s.setParam st x).jWrite = s.jWrite := by
  unfold State.setParam; split <;> rfl
@[simp] theorem State.setParam_jGap (st : Nat) (x : Option Transfer) : (s.setParam st x).jGap = s.jGap := by
  unfold State.setParam; split <;> rfl
@[simp] theorem State.setParam_jSeq (st : Nat) (x : Option Transfer) : (s.setParam st x).jSeq = s.jSeq := by
  unfold State.setParam; split <;> rfl
@[simp] theorem State.setParam_sigA (st : Nat) (x : Option Transfer) : (s.setParam st x).sigA = s.sigA := by
  unfold State.setParam; split <;> rfl
@[simp] theorem State.setParam_sigB (st : Nat) (x : Option Transfer) : (s.setParam st x).sigB = s.sigB := by
  unfold State.setParam; split <;> rfl
@[simp] theorem State.setParam_ring (st : Nat) (x : Option Transfer) : (s.setParam st x).ring = s.ring := by
  unfold State.setParam; split <;> rfl
@[simp] theorem State.setParam_fold (st : Nat) (x : Option Transfer) : (s.setParam st x).fold = s.fold := by
  unfold State.setParam; split <;> rfl
@[simp] theorem State.setParam_enrol (st : Nat) (x : Option Transfer) : (s.setParam st x).enrol = s.enrol := by
  unfold State.setParam; split <;> rfl
@[simp] theorem State.setParam_stations (st : Nat) (x : Option Transfer) : (s.setParam st x).stations = s.stations := by
  unfold State.setParam; split <;> rfl
@[simp] theorem State.setParam_channels (st : Nat) (x : Option Transfer) : (s.setParam st x).channels = s.channels := by
  unfold State.setParam; split <;> rfl
@[simp] theorem State.setParam_zones (st : Nat) (x : Option Transfer) : (s.setParam st x).zones = s.zones := by
  unfold State.setParam; split <;> rfl
@[simp] theorem State.setParam_tunnelLevel (st : Nat) (x : Option Transfer) : (s.setParam st x).tunnelLevel = s.tunnelLevel := by
  unfold State.setParam; split <;> rfl
@[simp] theorem State.setParam_fans (st : Nat) (x : Option Transfer) : (s.setParam st x).fans = s.fans := by
  unfold State.setParam; split <;> rfl
@[simp] theorem State.setParam_feeders (st : Nat) (x : Option Transfer) : (s.setParam st x).feeders = s.feeders := by
  unfold State.setParam; split <;> rfl
@[simp] theorem State.setParam_doors (st : Nat) (x : Option Transfer) : (s.setParam st x).doors = s.doors := by
  unfold State.setParam; split <;> rfl
@[simp] theorem State.setParam_passageWritten (st : Nat) (x : Option Transfer) : (s.setParam st x).passageWritten = s.passageWritten := by
  unfold State.setParam; split <;> rfl
@[simp] theorem State.setParam_plan (st : Nat) (x : Option Transfer) : (s.setParam st x).plan = s.plan := by
  unfold State.setParam; split <;> rfl
@[simp] theorem State.setParam_secondsOwed (st : Nat) (x : Option Transfer) : (s.setParam st x).secondsOwed = s.secondsOwed := by
  unfold State.setParam; split <;> rfl
@[simp] theorem State.setParam_events (st : Nat) (x : Option Transfer) : (s.setParam st x).events = s.events := by
  unfold State.setParam; split <;> rfl

/-! ## State.handledAs -/

/-- One spelling for an event whose update writes the changed entries only. -/
@[simp] theorem State.handled_eq (w : Writer) : s.handled w = s.handledAs .none w := rfl
@[simp] theorem State.handledAs_events (force : Force) (w : Writer) :
    (s.handledAs force w).events = s.events ++ [{ writer := w, force := force, shown := s.shown }] := rfl
@[simp] theorem State.handledAs_shown (force : Force) (w : Writer) : (s.handledAs force w).shown = s.shown := rfl
@[simp] theorem State.handledAs_pending (force : Force) (w : Writer) : (s.handledAs force w).pending = s.pending := rfl
@[simp] theorem State.handledAs_clock (force : Force) (w : Writer) : (s.handledAs force w).clock = s.clock := rfl
@[simp] theorem State.handledAs_mem (force : Force) (w : Writer) : (s.handledAs force w).mem = s.mem := rfl
@[simp] theorem State.handledAs_attn (force : Force) (w : Writer) : (s.handledAs force w).attn = s.attn := rfl
@[simp] theorem State.handledAs_mask (force : Force) (w : Writer) : (s.handledAs force w).mask = s.mask := rfl
@[simp] theorem State.handledAs_formatting (force : Force) (w : Writer) :
    (s.handledAs force w).formatting = s.formatting := rfl
@[simp] theorem State.handledAs_formatStores (force : Force) (w : Writer) :
    (s.handledAs force w).formatStores = s.formatStores := rfl
@[simp] theorem State.handledAs_freeIdx (force : Force) (w : Writer) : (s.handledAs force w).freeIdx = s.freeIdx := rfl
@[simp] theorem State.handledAs_imageCounts (force : Force) (w : Writer) :
    (s.handledAs force w).imageCounts = s.imageCounts := rfl
@[simp] theorem State.handledAs_intake (force : Force) (w : Writer) : (s.handledAs force w).intake = s.intake := rfl
@[simp] theorem State.handledAs_active (force : Force) (w : Writer) : (s.handledAs force w).active = s.active := rfl
@[simp] theorem State.handledAs_jWrite (force : Force) (w : Writer) : (s.handledAs force w).jWrite = s.jWrite := rfl
@[simp] theorem State.handledAs_jGap (force : Force) (w : Writer) : (s.handledAs force w).jGap = s.jGap := rfl
@[simp] theorem State.handledAs_jSeq (force : Force) (w : Writer) : (s.handledAs force w).jSeq = s.jSeq := rfl
@[simp] theorem State.handledAs_sigA (force : Force) (w : Writer) : (s.handledAs force w).sigA = s.sigA := rfl
@[simp] theorem State.handledAs_sigB (force : Force) (w : Writer) : (s.handledAs force w).sigB = s.sigB := rfl
@[simp] theorem State.handledAs_ring (force : Force) (w : Writer) : (s.handledAs force w).ring = s.ring := rfl
@[simp] theorem State.handledAs_fold (force : Force) (w : Writer) : (s.handledAs force w).fold = s.fold := rfl
@[simp] theorem State.handledAs_enrol (force : Force) (w : Writer) : (s.handledAs force w).enrol = s.enrol := rfl
@[simp] theorem State.handledAs_stations (force : Force) (w : Writer) :
    (s.handledAs force w).stations = s.stations := rfl
@[simp] theorem State.handledAs_channels (force : Force) (w : Writer) :
    (s.handledAs force w).channels = s.channels := rfl
@[simp] theorem State.handledAs_zones (force : Force) (w : Writer) : (s.handledAs force w).zones = s.zones := rfl
@[simp] theorem State.handledAs_tunnelLevel (force : Force) (w : Writer) :
    (s.handledAs force w).tunnelLevel = s.tunnelLevel := rfl
@[simp] theorem State.handledAs_fans (force : Force) (w : Writer) : (s.handledAs force w).fans = s.fans := rfl
@[simp] theorem State.handledAs_feeders (force : Force) (w : Writer) : (s.handledAs force w).feeders = s.feeders := rfl
@[simp] theorem State.handledAs_doors (force : Force) (w : Writer) : (s.handledAs force w).doors = s.doors := rfl
@[simp] theorem State.handledAs_passageWritten (force : Force) (w : Writer) :
    (s.handledAs force w).passageWritten = s.passageWritten := rfl
@[simp] theorem State.handledAs_plan (force : Force) (w : Writer) : (s.handledAs force w).plan = s.plan := rfl
@[simp] theorem State.handledAs_params (force : Force) (w : Writer) : (s.handledAs force w).params = s.params := rfl
@[simp] theorem State.handledAs_secondsOwed (force : Force) (w : Writer) :
    (s.handledAs force w).secondsOwed = s.secondsOwed := rfl
@[simp] theorem State.handledAs_fan (force : Force) (w : Writer) (f : Nat) :
    (s.handledAs force w).fan f = s.fan f := rfl
@[simp] theorem State.handledAs_channel (force : Force) (w : Writer) (c : Nat) :
    (s.handledAs force w).channel c = s.channel c := rfl
@[simp] theorem State.handledAs_door (force : Force) (w : Writer) (d : Nat) :
    (s.handledAs force w).door d = s.door d := rfl
@[simp] theorem State.handledAs_zone (force : Force) (w : Writer) (z : Nat) :
    (s.handledAs force w).zone z = s.zone z := rfl
@[simp] theorem State.handledAs_feeder (force : Force) (w : Writer) (k : Nat) :
    (s.handledAs force w).feeder k = s.feeder k := rfl
@[simp] theorem State.handledAs_param (force : Force) (w : Writer) (st : Nat) :
    (s.handledAs force w).param st = s.param st := rfl
@[simp] theorem State.handledAs_station (force : Force) (w : Writer) (st : Nat) :
    (s.handledAs force w).station st = s.station st := rfl
@[simp] theorem State.handledAs_entry (force : Force) (w : Writer) (st : Nat) :
    (s.handledAs force w).entry st = s.entry st := rfl
@[simp] theorem State.handledAs_readByte (force : Force) (w : Writer) (a : Nat) :
    (s.handledAs force w).readByte a = s.readByte a := rfl
@[simp] theorem State.handledAs_activeOrder (force : Force) (w : Writer) (slot : Nat) :
    (s.handledAs force w).activeOrder slot = s.activeOrder slot := rfl

end Sys2Proof.Machine
end

