-- ==== Sys2Proof/Laws/Ops.lean ====
section
/-! SUPPORT. What each shared operation of Machine/Ops.lean can do, said once: the window's reads and writes, the
attention bits, the journal, the taking and the completion of orders. -/

namespace Sys2Proof.Machine

/-! ## The window -/

/-- States with the same window read the same bytes. -/
theorem State.readByte_of_mem {s t : State} (h : t.mem = s.mem) (a : Nat) : t.readByte a = s.readByte a := by
  unfold State.readByte; rw [h]

theorem State.readByte_write (s : State) (a : Nat) (bs : List Byte) (c : Nat) (h : Memory.wf s.mem = true) :
    (s.write a bs).readByte c = if a ≤ c ∧ c < a + bs.length then bs.getD (c - a) 0 else s.readByte c :=
  Memory.read_writeBytes bs s.mem a c h

theorem State.readByte_write_outside (s : State) (a : Nat) (bs : List Byte) (c : Nat) (h : Memory.wf s.mem = true)
    (hc : c < a ∨ a + bs.length ≤ c) : (s.write a bs).readByte c = s.readByte c := by
  rw [State.readByte_write s a bs c h, if_neg (by omega)]

/-- Two stores in turn leave alone what lies outside both. -/
theorem State.readByte_write_write (s : State) (a b : Nat) (bs cs : List Byte) (c : Nat) (h : Memory.wf s.mem = true)
    (ha : c < a ∨ a + bs.length ≤ c) (hb : c < b ∨ b + cs.length ≤ c) :
    ((s.write a bs).write b cs).readByte c = s.readByte c := by
  have hw : Memory.wf (s.write a bs).mem = true := Memory.writeBytes_wf bs s.mem a h
  rw [State.readByte_write_outside (s.write a bs) b cs c hw hb, State.readByte_write_outside s a bs c h ha]

theorem State.write_wf (s : State) (a : Nat) (bs : List Byte) (h : Memory.wf s.mem = true) :
    Memory.wf (s.write a bs).mem = true := Memory.writeBytes_wf bs s.mem a h

theorem Memory.readBytes_length (m : List Host.Cell) (a n : Nat) : (Memory.readBytes m a n).length = n := by
  simp [Memory.readBytes]

theorem State.readBytes_length (s : State) (a n : Nat) : (s.readBytes a n).length = n := Memory.readBytes_length _ _ _

theorem State.readBytes_getD (s : State) (a n i : Nat) (h : i < n) : (s.readBytes a n).getD i 0 = s.readByte (a + i) := by
  simp [State.readBytes, Memory.readBytes, State.readByte, h]

/-- Reading whole bytes that have just been stored gives them back. -/
theorem State.readBytes_write_same (s : State) (a : Nat) (bs : List Byte) (h : Memory.wf s.mem = true) :
    (s.write a bs).readBytes a bs.length = bs := by
  apply List.ext_getElem
  · simp [State.readBytes_length]
  · intro i h1 h2
    have : (s.write a bs).readByte (a + i) = bs[i] := by
      rw [State.readByte_write s a bs _ h, if_pos ⟨by omega, by omega⟩]
      simp [List.getD_eq_getElem?_getD, List.getElem?_eq_getElem h2]
    simpa [State.readBytes, Memory.readBytes, State.readByte] using this

/-- Two states whose bytes agree from an address on read the same bytes there. -/
theorem State.readBytes_congr (s t : State) (a n : Nat) (h : ∀ i, i < n → t.readByte (a + i) = s.readByte (a + i)) :
    t.readBytes a n = s.readBytes a n := by
  simp only [State.readBytes, Memory.readBytes]
  apply List.map_congr_left
  intro i hi
  exact h i (List.mem_range.mp hi)

@[simp] theorem le16_length (n : Nat) : (le16 n).length = 2 := rfl
@[simp] theorem le24_length (n : Nat) : (le24 n).length = 3 := rfl
@[simp] theorem le32_length (n : Nat) : (le32 n).length = 4 := rfl
@[simp] theorem sle16_length (v : Int) : (sle16 v).length = 2 := rfl

@[simp] theorem padTo_length (n : Nat) (bs : List Byte) : (padTo n bs).length = n := by simp [padTo]

@[simp] theorem completedSlot_length (copy : List Byte) (o : OrderOutcome) (clamped : Bool) (now : Clock) (count : Nat)
    (body : List Byte) : (completedSlot copy o clamped now count body).length = 64 := by
  simp [completedSlot]

/-! ## Attention bits (R164) -/

/-- Setting a bit sets it and leaves the others. -/
theorem State.setAttn_bit (s : State) (b : AttnBit) (i : Nat) (h : i < 6) :
    (s.setAttn b).attn.getLsbD i = (s.attn.getLsbD i || decide (i = b.pos)) := by
  have : i = 0 ∨ i = 1 ∨ i = 2 ∨ i = 3 ∨ i = 4 ∨ i = 5 := by omega
  rcases this with rfl | rfl | rfl | rfl | rfl | rfl <;> cases b <;> simp [AttnBit.pos]

/-- A write of ATTN clears the bits written as 1 and leaves the others. -/
theorem State.clearAttn_bit (s : State) (v : BitVec 32) (i : Nat) (h : i < 6) :
    (s.clearAttn v).attn.getLsbD i = (s.attn.getLsbD i && !v.getLsbD i) := by
  simp [h]

/-! ## The journal (R173, R184) -/

/-- The bytes of a record. -/
def recordBytes (s : State) (k : EventKind) (subject d1 d2 : Nat) : List Byte :=
  le16 s.jSeq.toNat ++ [byte k.code, 0] ++ le32 s.clock.toNat ++ le16 subject ++ le16 d1 ++ le16 d2 ++ [0, 0]

@[simp] theorem recordBytes_length (s : State) (k : EventKind) (subject d1 d2 : Nat) :
    (recordBytes s k subject d1 d2).length = 16 := rfl

/-- What the journal writer may change. -/
structure Journals (s t : State) : Prop where
  frame : t = { s with mem := t.mem, attn := t.attn, jWrite := t.jWrite, jGap := t.jGap, jSeq := t.jSeq }
  wf : Memory.wf s.mem = true → Memory.wf t.mem = true
  index : s.jWrite < 256 → t.jWrite < 256
  mem : s.jWrite < 256 → Memory.wf s.mem = true →
    ∀ a, ¬((0x08 ≤ a ∧ a < 0x0A) ∨ (0x0C ≤ a ∧ a < 0x0E) ∨ (0x1200 ≤ a ∧ a < 0x2200)) → t.readByte a = s.readByte a

theorem Journals.trans {s t u : State} (h : Journals s t) (g : Journals t u) : Journals s u where
  frame := by rw [g.frame, h.frame]
  wf hs := g.wf (h.wf hs)
  index hi := g.index (h.index hi)
  mem hi hs a ha := by rw [g.mem (h.index hi) (h.wf hs) a ha, h.mem hi hs a ha]

theorem Journals.gap (s : State) (n : Nat) : Journals s { s with jGap := n } :=
  ⟨rfl, fun h => h, fun h => h, fun _ _ _ _ => rfl⟩

theorem State.showJournal_journals (s : State) : Journals s s.showJournal where
  frame := rfl
  wf h := State.write_wf _ _ _ (State.write_wf _ _ _ h)
  index h := h
  mem _ h a ha := by
    exact State.readByte_write_write s 0x08 0x0C (le16 s.jWrite) (le16 s.jGap) a h
      (by rw [le16_length]; omega) (by rw [le16_length]; omega)

theorem Journals.record (s : State) (bs : List Byte) (hb : bs.length = 16) :
    Journals s (s.write (journalAt s.jWrite) bs) where
  frame := rfl
  wf h := State.write_wf s (journalAt s.jWrite) bs h
  index h := h
  mem hi h a ha := State.readByte_write_outside s (journalAt s.jWrite) bs a h
    (by rw [hb]; simp only [journalAt]; omega)

theorem Journals.advance (s : State) :
    Journals s (State.setAttn .event { s with jWrite := (s.jWrite + 1) % 256, jSeq := s.jSeq + 1 }) :=
  ⟨rfl, fun h => h, fun _ => Nat.mod_lt _ (by decide), fun _ _ _ _ => rfl⟩

theorem State.appendRecord_journals (k : EventKind) (subject d1 d2 : Nat) (s : State) :
    Journals s (s.appendRecord k subject d1 d2) :=
  ((Journals.record s (recordBytes s k subject d1 d2) (recordBytes_length s k subject d1 d2)).trans
    (Journals.advance (s.write (journalAt s.jWrite) (recordBytes s k subject d1 d2)))).trans
      (State.showJournal_journals _)

theorem State.countGap_journals (s : State) : Journals s s.countGap := by
  have h1 : Journals s (State.setAttn .journalFull { s with jGap := sat16 (s.jGap + 1) }) :=
    ⟨rfl, fun h => h, fun h => h, fun _ _ _ _ => rfl⟩
  exact h1.trans (State.showJournal_journals _)

theorem State.journalOne_journals (k : EventKind) (subject d1 d2 : Nat) (s : State) :
    Journals s (s.journalOne k subject d1 d2) := by
  unfold State.journalOne
  split
  · exact State.appendRecord_journals ..
  · exact State.countGap_journals s

/-- An event reported to the journal writer changes the journal and nothing else. -/
theorem State.journal_journals (k : EventKind) (subject d1 d2 : Nat) (s : State) :
    Journals s (s.journal k subject d1 d2) := by
  unfold State.journal
  split
  · exact State.journalOne_journals ..
  · split
    · refine (State.appendRecord_journals .gap 0 s.jGap 0 s).trans (Journals.trans ?_ (State.journalOne_journals ..))
      exact (Journals.gap _ 0).trans (State.showJournal_journals _)
    · exact State.countGap_journals s

/-! ## Completion and taking of orders (R167, R170) -/

/-- The two cases of a completion: the order is active, or nothing happens. -/
theorem State.complete_cases (slot : Nat) (o : OrderOutcome) (clamped : Bool) (count : Nat) (body : List Byte)
    (s : State) :
    (s.activeOrder slot = none ∧ s.complete slot o clamped count body = s) ∨
    ∃ x, s.activeOrder slot = some x ∧ s.complete slot o clamped count body =
      { s with
        mem := ((s.write (slotAt slot) (completedSlot x.copy o clamped s.clock count body)).write (flagAt slot) [1]).mem,
        attn := s.attn ||| 1, active := s.active.filter fun y => y.slot != slot } := by
  unfold State.complete
  cases h : s.activeOrder slot with
  | none => exact .inl ⟨rfl, rfl⟩
  | some x => exact .inr ⟨x, rfl, rfl⟩

theorem State.complete_wf (slot : Nat) (o : OrderOutcome) (clamped : Bool) (count : Nat) (body : List Byte) (s : State)
    (h : Memory.wf s.mem = true) : Memory.wf (s.complete slot o clamped count body).mem = true := by
  rcases State.complete_cases slot o clamped count body s with ⟨_, he⟩ | ⟨x, _, he⟩
  · rw [he]; exact h
  · rw [he]; exact State.write_wf _ _ _ (State.write_wf _ _ _ h)

/-- A completion writes its own slot and flag and no other byte. -/
theorem State.complete_mem (slot : Nat) (o : OrderOutcome) (clamped : Bool) (count : Nat) (body : List Byte) (s : State)
    (h : Memory.wf s.mem = true) (a : Nat) (ha : ¬slotPlace slot a) :
    (s.complete slot o clamped count body).readByte a = s.readByte a := by
  rcases State.complete_cases slot o clamped count body s with ⟨_, he⟩ | ⟨x, _, he⟩
  · rw [he]
  · have hm : (s.complete slot o clamped count body).mem =
        ((s.write (slotAt slot) (completedSlot x.copy o clamped s.clock count body)).write (flagAt slot) [1]).mem := by
      rw [he]
    unfold slotPlace at ha
    refine (State.readByte_of_mem hm a).trans ?_
    exact State.readByte_write_write s (slotAt slot) (flagAt slot) _ [1] a h
      (by rw [completedSlot_length]; omega) (by simp only [List.length_cons, List.length_nil]; omega)

/-- The slot and the flag of an order that has been completed. -/
theorem State.complete_slot (slot : Nat) (o : OrderOutcome) (clamped : Bool) (count : Nat) (body : List Byte) (s : State)
    (x : ActiveOrder) (hx : s.activeOrder slot = some x) (h : Memory.wf s.mem = true) (hs : slot < 64) :
    (s.complete slot o clamped count body).readBytes (slotAt slot) 64 =
        completedSlot x.copy o clamped s.clock count body ∧
      (s.complete slot o clamped count body).readByte (flagAt slot) = 1 := by
  rcases State.complete_cases slot o clamped count body s with ⟨hn, _⟩ | ⟨y, hy, he⟩
  · rw [hn] at hx; cases hx
  · obtain rfl : y = x := by rw [hy] at hx; exact Option.some.inj hx
    have hm : (s.complete slot o clamped count body).mem =
        ((s.write (slotAt slot) (completedSlot y.copy o clamped s.clock count body)).write (flagAt slot) [1]).mem := by
      rw [he]
    have hw := State.write_wf s (slotAt slot) (completedSlot y.copy o clamped s.clock count body) h
    constructor
    · have := State.readBytes_write_same s (slotAt slot) (completedSlot y.copy o clamped s.clock count body) h
      rw [completedSlot_length] at this
      rw [← this]
      apply State.readBytes_congr
      intro i hi
      refine (State.readByte_of_mem hm _).trans ?_
      exact State.readByte_write_outside (s.write (slotAt slot) (completedSlot y.copy o clamped s.clock count body))
        (flagAt slot) [1] _ hw (by simp only [slotAt, flagAt, List.length_cons, List.length_nil]; omega)
    · refine (State.readByte_of_mem hm _).trans ((State.readByte_write (s.write (slotAt slot) (completedSlot y.copy o clamped s.clock count body))
        (flagAt slot) [1] _ hw).trans ?_)
      rw [if_pos (by simp)]
      simp

/-- A completed order is no longer active. -/
theorem State.complete_inactive (slot : Nat) (o : OrderOutcome) (clamped : Bool) (count : Nat) (body : List Byte)
    (s : State) : (s.complete slot o clamped count body).activeOrder slot = none := by
  rcases State.complete_cases slot o clamped count body s with ⟨hn, he⟩ | ⟨x, _, he⟩
  · rw [he]; exact hn
  · rw [he]
    simp only [State.activeOrder, List.find?_eq_none]
    intro y hy
    have := (List.mem_filter.mp hy).2
    simpa using this

/-- The taking of the head: what it changes. -/
theorem State.takeHead_eq (slot : Nat) (s : State) :
    s.takeHead slot = { s with
      intake := s.intake.tail, active := s.active ++ [ActiveOrder.mk slot (s.readBytes (slotAt slot) 64) .quick],
      mem := ((s.write (slotAt slot) [byte slotTaken]).write (flagAt slot) [0]).mem } := rfl

theorem State.takeHead_wf (slot : Nat) (s : State) (h : Memory.wf s.mem = true) :
    Memory.wf (s.takeHead slot).mem = true := State.write_wf _ _ _ (State.write_wf _ _ _ h)

theorem State.takeHead_active (slot : Nat) (s : State) (h : s.activeOrder slot = none) :
    (s.takeHead slot).activeOrder slot =
      some { slot := slot, copy := s.readBytes (slotAt slot) 64, work := .quick } := by
  simp only [State.activeOrder, State.takeHead_eq, List.find?_append] at *
  rw [h]
  simp

theorem State.takeHead_mem (slot : Nat) (s : State) (h : Memory.wf s.mem = true) (a : Nat)
    (ha : a ≠ slotAt slot) (hf : a ≠ flagAt slot) : (s.takeHead slot).readByte a = s.readByte a := by
  exact State.readByte_write_write s (slotAt slot) (flagAt slot) [byte slotTaken] [0] a h
    (by simp only [List.length_cons, List.length_nil]; omega) (by simp only [List.length_cons, List.length_nil]; omega)

/-- What the dispatcher's step for a row does when the order stands ready (R167). -/
theorem State.takeOrder_ready (slot code : Nat) (run : Nat → List Byte → State → State) (s : State)
    (h : s.orderReady slot code) : s.takeOrder code run = run slot (s.orderBody slot) (s.takeHead slot) := by
  obtain ⟨⟨hh, _, hp, _, _⟩, hc⟩ := h
  unfold State.takeOrder
  cases hi : s.intake with
  | nil => rw [hi] at hh; cases hh
  | cons x rest =>
    rw [hi] at hh
    obtain rfl : x = slot := Option.some.inj hh
    exact if_pos ⟨hp, hc⟩

end Sys2Proof.Machine
end

