-- ==== Sys2Proof/Laws/Reacts.lean ====
section
/-! SUPPORT. What the blocks' reactions to one another can change, said once for every operation of the fan sequencer, the
start arbiter, the door supervisor, the planner, the zone evaluator and the channel processor: the relation `Reacts`,
which composes. -/

namespace Sys2Proof.Machine

/-- What a reaction may change and what it keeps. -/
structure Reacts (s t : State) : Prop where
  frame : t = { s with
    mem := t.mem, attn := t.attn, active := t.active, jWrite := t.jWrite, jGap := t.jGap, jSeq := t.jSeq,
    ring := { s.ring with entries := t.ring.entries, outstanding := t.ring.outstanding },
    channels := t.channels, zones := t.zones, tunnelLevel := t.tunnelLevel, fans := t.fans, feeders := t.feeders,
    doors := t.doors, passageWritten := t.passageWritten, plan := t.plan, events := t.events }
  wf : Memory.wf s.mem = true → Memory.wf t.mem = true
  index : s.jWrite < 256 → t.jWrite < 256
  active : (t.active.map (·.slot)).Sublist (s.active.map (·.slot))
  mem : (∀ k ∈ s.active.map (·.slot), k < 64) → s.jWrite < 256 → Memory.wf s.mem = true →
    ∀ a, ¬reactionPlace a → t.readByte a = s.readByte a
  tags : t.ring.outstanding.map (·.tag) = s.ring.outstanding.map (·.tag)
  entries : t.ring.entries.length = s.ring.entries.length
  channels : t.channels.length = s.channels.length
  zones : t.zones.length = s.zones.length
  fans : t.fans.length = s.fans.length
  feeders : t.feeders.length = s.feeders.length
  doors : t.doors.length = s.doors.length
  passages : t.passageWritten.length = s.passageWritten.length

theorem Reacts.refl (s : State) : Reacts s s :=
  ⟨rfl, id, id, List.Sublist.refl _, fun _ _ _ _ _ => rfl, rfl, rfl, rfl, rfl, rfl, rfl, rfl, rfl⟩

theorem Reacts.trans {s t u : State} (h : Reacts s t) (g : Reacts t u) : Reacts s u where
  frame := by rw [g.frame, h.frame]
  wf hs := g.wf (h.wf hs)
  index hi := g.index (h.index hi)
  active := g.active.trans h.active
  mem hk hi hs a ha := by
    rw [g.mem (fun k hm => hk k (h.active.subset hm)) (h.index hi) (h.wf hs) a ha, h.mem hk hi hs a ha]
  tags := g.tags.trans h.tags
  entries := g.entries.trans h.entries
  channels := g.channels.trans h.channels
  zones := g.zones.trans h.zones
  fans := g.fans.trans h.fans
  feeders := g.feeders.trans h.feeders
  doors := g.doors.trans h.doors
  passages := g.passages.trans h.passages

theorem Reacts.ite {s a b : State} (c : Prop) [Decidable c] (ha : Reacts s a) (hb : Reacts s b) :
    Reacts s (if c then a else b) := by split <;> assumption

theorem Reacts.forEach (f : Nat → State → State) (hf : ∀ i s, Reacts s (f i s)) (l : List Nat) (s : State) :
    Reacts s (Machine.forEach l f s) := by
  unfold Machine.forEach
  induction l generalizing s with
  | nil => exact .refl s
  | cons i l ih => exact (hf i s).trans (ih (f i s))

theorem Reacts.foldl {α : Type} (f : State → α → State) (hf : ∀ s x, Reacts s (f s x)) (l : List α) (s : State) :
    Reacts s (l.foldl f s) := by
  induction l generalizing s with
  | nil => exact .refl s
  | cons i l ih => exact (hf s i).trans (ih (f s i))

/-! ## The plain updates -/

theorem Reacts.setFans (s : State) (l : List (Option Fan)) (h : l.length = s.fans.length) :
    Reacts s { s with fans := l } :=
  ⟨rfl, id, id, List.Sublist.refl _, fun _ _ _ _ _ => rfl, rfl, rfl, rfl, rfl, h, rfl, rfl, rfl⟩

theorem Reacts.setChannels (s : State) (l : List (Option Channel)) (h : l.length = s.channels.length) :
    Reacts s { s with channels := l } :=
  ⟨rfl, id, id, List.Sublist.refl _, fun _ _ _ _ _ => rfl, rfl, rfl, h, rfl, rfl, rfl, rfl, rfl⟩

theorem Reacts.setDoors (s : State) (l : List (Option Door)) (h : l.length = s.doors.length) :
    Reacts s { s with doors := l } :=
  ⟨rfl, id, id, List.Sublist.refl _, fun _ _ _ _ _ => rfl, rfl, rfl, rfl, rfl, rfl, rfl, h, rfl⟩

theorem Reacts.setZones (s : State) (l : List Zone) (h : l.length = s.zones.length) : Reacts s { s with zones := l } :=
  ⟨rfl, id, id, List.Sublist.refl _, fun _ _ _ _ _ => rfl, rfl, rfl, rfl, h, rfl, rfl, rfl, rfl⟩

theorem Reacts.setFeeders (s : State) (l : List Feeder) (h : l.length = s.feeders.length) :
    Reacts s { s with feeders := l } :=
  ⟨rfl, id, id, List.Sublist.refl _, fun _ _ _ _ _ => rfl, rfl, rfl, rfl, rfl, rfl, h, rfl, rfl⟩

theorem Reacts.setPassages (s : State) (l : List (Option Speed)) (h : l.length = s.passageWritten.length) :
    Reacts s { s with passageWritten := l } :=
  ⟨rfl, id, id, List.Sublist.refl _, fun _ _ _ _ _ => rfl, rfl, rfl, rfl, rfl, rfl, rfl, rfl, h⟩

theorem Reacts.setTunnel (s : State) (n : Nat) : Reacts s { s with tunnelLevel := n } :=
  ⟨rfl, id, id, List.Sublist.refl _, fun _ _ _ _ _ => rfl, rfl, rfl, rfl, rfl, rfl, rfl, rfl, rfl⟩

/-- The end of an event changes nothing but the record of it. -/
theorem State.handledAs_reacts (force : Force) (w : Writer) (s : State) : Reacts s (s.handledAs force w) :=
  ⟨rfl, id, id, List.Sublist.refl _, fun _ _ _ _ _ => rfl, rfl, rfl, rfl, rfl, rfl, rfl, rfl, rfl⟩

/-- A reaction and the end of its event. -/
theorem Reacts.handled {s t : State} (h : Reacts s t) (w : Writer) : Reacts s (t.handled w) :=
  h.trans (State.handledAs_reacts ..)

theorem State.modPlan_reacts (g : Planner → Planner) (s : State) : Reacts s (s.modPlan g) :=
  ⟨rfl, id, id, List.Sublist.refl _, fun _ _ _ _ _ => rfl, rfl, rfl, rfl, rfl, rfl, rfl, rfl, rfl⟩

theorem State.modFan_reacts (f : Nat) (g : Fan → Fan) (s : State) : Reacts s (s.modFan f g) :=
  Reacts.setFans s _ (List.length_modify ..)

theorem State.modChannel_reacts (c : Nat) (g : Channel → Channel) (s : State) : Reacts s (s.modChannel c g) :=
  Reacts.setChannels s _ (List.length_modify ..)

theorem State.modDoor_reacts (d : Nat) (g : Door → Door) (s : State) : Reacts s (s.modDoor d g) :=
  Reacts.setDoors s _ (List.length_modify ..)

theorem State.modZone_reacts (z : Nat) (g : Zone → Zone) (s : State) : Reacts s (s.modZone z g) :=
  Reacts.setZones s _ (List.length_modify ..)

theorem State.modFeeder_reacts (k : Nat) (g : Feeder → Feeder) (s : State) : Reacts s (s.modFeeder k g) :=
  Reacts.setFeeders s _ (List.length_modify ..)

/-- A change of the ring's queues and of what its outstanding frames carry. -/
theorem Reacts.setRing (s : State) (es : List RingEntry) (os : List OutFrame)
    (he : es.length = s.ring.entries.length) (ht : os.map (·.tag) = s.ring.outstanding.map (·.tag)) :
    Reacts s { s with ring := { s.ring with entries := es, outstanding := os } } :=
  ⟨rfl, id, id, List.Sublist.refl _, fun _ _ _ _ _ => rfl, ht, he, rfl, rfl, rfl, rfl, rfl, rfl⟩

theorem State.modEntry_reacts (st : Nat) (g : RingEntry → RingEntry) (s : State) : Reacts s (s.modEntry st g) := by
  unfold State.modEntry
  split
  · exact .refl s
  · exact Reacts.setRing s (s.ring.entries.modify (st - 1) g) s.ring.outstanding (List.length_modify ..) rfl

theorem State.orphanReset_reacts (f : Nat) (s : State) : Reacts s (s.orphanReset f) := by
  refine Reacts.setRing s _ _ (List.length_map ..) ?_
  rw [List.map_map]
  rfl

theorem Reacts.of_journals {s t : State} (h : Journals s t) : Reacts s t where
  frame := by rw [h.frame]
  wf := h.wf
  index := h.index
  active := by rw [h.frame]
  mem _ hi hs a ha := h.mem hi hs a (by unfold reactionPlace at ha; omega)
  tags := by rw [h.frame]
  entries := by rw [h.frame]
  channels := by rw [h.frame]
  zones := by rw [h.frame]
  fans := by rw [h.frame]
  feeders := by rw [h.frame]
  doors := by rw [h.frame]
  passages := by rw [h.frame]

theorem State.journal_reacts (k : EventKind) (subject d1 d2 : Nat) (s : State) :
    Reacts s (s.journal k subject d1 d2) := .of_journals (State.journal_journals ..)

/-! ## Orders -/

theorem State.setWork_reacts (slot : Nat) (w : Work) (s : State) : Reacts s (s.setWork slot w) where
  frame := rfl
  wf := id
  index := id
  active := by
    have : (s.setWork slot w).active.map (·.slot) = s.active.map (·.slot) := by
      rw [State.setWork_active, List.map_map]
      apply List.map_congr_left
      intro o _
      show (if o.slot = slot then { o with work := w } else o).slot = o.slot
      split <;> rfl
    rw [this]
  mem _ _ _ _ _ := rfl
  tags := rfl
  entries := rfl
  channels := rfl
  zones := rfl
  fans := rfl
  feeders := rfl
  doors := rfl
  passages := rfl

theorem State.complete_reacts (slot : Nat) (o : OrderOutcome) (clamped : Bool) (count : Nat) (body : List Byte)
    (s : State) : Reacts s (s.complete slot o clamped count body) := by
  have hm := State.complete_mem slot o clamped count body s
  rcases State.complete_cases slot o clamped count body s with ⟨_, he⟩ | ⟨x, hx, he⟩
  · rw [he]; exact .refl s
  · have hslot : slot ∈ s.active.map (·.slot) := by
      have h1 := List.mem_of_find?_eq_some hx
      have h2 := List.find?_some hx
      exact List.mem_map.mpr ⟨x, h1, by simpa using h2⟩
    refine ⟨by rw [he], State.complete_wf slot o clamped count body s, by rw [he]; exact id, ?_, ?_, by rw [he],
      by rw [he], by rw [he], by rw [he], by rw [he], by rw [he], by rw [he], by rw [he]⟩
    · rw [he]; exact List.Sublist.map _ List.filter_sublist
    · intro hk _ hs a ha
      refine hm hs a ?_
      have := hk slot hslot
      unfold reactionPlace at ha
      unfold slotPlace slotAt flagAt
      omega

theorem State.completeBare_reacts (slot : Nat) (o : OrderOutcome) (s : State) : Reacts s (s.completeBare slot o) :=
  State.complete_reacts ..

theorem State.completeParts_reacts (slot : Nat) (s : State) : Reacts s (s.completeParts slot) := by
  unfold State.completeParts
  split
  · exact .refl s
  · split
    · split
      · exact State.complete_reacts ..
      · exact .refl s
    · exact .refl s

theorem State.partOutcome_reacts (slot f : Nat) (out : OrderOutcome) (s : State) :
    Reacts s (s.partOutcome slot f out) := by
  unfold State.partOutcome
  split
  · exact .refl s
  · split
    · exact (State.setWork_reacts ..).trans (State.completeParts_reacts ..)
    · exact .refl s

/-! ## Offers (R8) -/

theorem State.offer_reacts (st : Nat) (q : QFrame) (s : State) : Reacts s (s.offer st q).2 := by
  unfold State.offer
  split
  · exact .refl s
  · split
    · exact .refl s
    · exact (State.modEntry_reacts ..).handled ..

theorem State.offerStep_reacts (st fan : Nat) (q : QFrame) (r : Bool) (s : State) :
    Reacts s (s.offerStep st fan q r).2 := by
  unfold State.offerStep
  split
  · exact .refl s
  · split
    · exact State.modEntry_reacts ..
    · split
      · exact .refl s
      · exact State.offer_reacts ..

end Sys2Proof.Machine
end

