-- ==== Sys2Proof/Laws/Devices.lean ====
section
/-! SUPPORT. Every operation of the device blocks is a reaction (`Reacts`): one lemma for each, in the order of their
definitions. -/

namespace Sys2Proof.Machine

/-! ## Machine/Fans.lean -/

theorem State.journalFan_reacts (f : Nat) (before : Nat) (s : State) :
    Reacts s (s.journalFan f before) := by
  unfold State.journalFan
  repeat' first
    | with_reducible exact Reacts.refl _
    | with_reducible refine Reacts.trans ?_ (State.journal_reacts ..)
    | with_reducible refine Reacts.ite _ ?_ ?_
    | split

theorem State.enterFan_reacts (f : Nat) (st : FanState) (s : State) : Reacts s (s.enterFan f st) := by
  unfold State.enterFan
  repeat' first
    | with_reducible exact Reacts.refl _
    | with_reducible refine Reacts.trans ?_ (State.modFan_reacts ..)
    | with_reducible refine Reacts.trans ?_ (State.journalFan_reacts ..)
    | with_reducible refine Reacts.ite _ ?_ ?_
    | split

theorem State.endPart_reacts (f : Nat) (out : OrderOutcome) (s : State) : Reacts s (s.endPart f out) := by
  unfold State.endPart
  repeat' first
    | with_reducible exact Reacts.refl _
    | with_reducible refine Reacts.trans ?_ (State.modFan_reacts ..)
    | with_reducible refine Reacts.trans ?_ (State.orphanReset_reacts ..)
    | with_reducible refine Reacts.trans ?_ (State.partOutcome_reacts ..)
    | with_reducible refine Reacts.ite _ ?_ ?_
    | split

theorem State.withdraw_reacts (f : Nat) (s : State) : Reacts s (s.withdraw f) := by
  unfold State.withdraw
  repeat' first
    | with_reducible exact Reacts.refl _
    | with_reducible refine Reacts.handled ?_ _
    | with_reducible refine Reacts.trans ?_ (State.modFeeder_reacts ..)
    | with_reducible refine Reacts.ite _ ?_ ?_
    | split

theorem State.dropSlot_reacts (f : Nat) (s : State) : Reacts s (s.dropSlot f) := by
  unfold State.dropSlot
  repeat' first
    | with_reducible exact Reacts.refl _
    | with_reducible refine Reacts.trans ?_ (State.modFan_reacts ..)
    | with_reducible refine Reacts.trans ?_ (State.modFeeder_reacts ..)
    | with_reducible refine Reacts.ite _ ?_ ?_
    | split

theorem State.fanLostBare_reacts (f : Nat) (s : State) : Reacts s (s.fanLostBare f) := by
  unfold State.fanLostBare
  repeat' first
    | with_reducible exact Reacts.refl _
    | with_reducible refine Reacts.handled ?_ _
    | with_reducible refine Reacts.trans ?_ (State.modFan_reacts ..)
    | with_reducible refine Reacts.trans ?_ (State.enterFan_reacts ..)
    | with_reducible refine Reacts.trans ?_ (State.endPart_reacts ..)
    | with_reducible refine Reacts.trans ?_ (State.withdraw_reacts ..)
    | with_reducible refine Reacts.trans ?_ (State.dropSlot_reacts ..)
    | with_reducible refine Reacts.ite _ ?_ ?_
    | split

theorem State.compareFan_reacts (f : Nat) (s : State) : Reacts s (s.compareFan f) := by
  unfold State.compareFan
  split
  · exact .refl s
  · rename_i r _
    refine Reacts.ite _ (.refl s) ?_
    have h := State.offerStep_reacts r.station f (r.stepFrameFor f) (r.stepFrame == .queued) s
    generalize s.offerStep r.station f (r.stepFrameFor f) (r.stepFrame == .queued) = x at h
    obtain ⟨a, u⟩ := x
    cases a with
    | accepted => exact Reacts.trans h (State.modFan_reacts ..)
    | placed => exact Reacts.trans h (State.modFan_reacts ..)
    | full => exact h
    | unreachable => exact Reacts.trans h (State.fanLostBare_reacts ..)


theorem State.takeGrant_reacts (f : Nat) (s : State) : Reacts s (s.takeGrant f) := by
  unfold State.takeGrant
  repeat' first
    | with_reducible exact Reacts.refl _
    | with_reducible refine Reacts.trans ?_ (State.modFan_reacts ..)
    | with_reducible refine Reacts.trans ?_ (State.modFeeder_reacts ..)
    | with_reducible refine Reacts.trans ?_ (State.compareFan_reacts ..)
    | with_reducible refine Reacts.ite _ ?_ ?_
    | split

theorem State.grantLoop_reacts (n k : Nat) (s : State) : Reacts s (State.grantLoop n k s) := by
  induction n generalizing s with
  | zero => exact .refl s
  | succ n ih =>
    unfold State.grantLoop
    split
    · split
      · exact .refl s
      · exact ((State.modFeeder_reacts ..).trans (State.takeGrant_reacts ..)).trans (ih _)
    · exact .refl s

theorem State.grants_reacts (k : Nat) (s : State) : Reacts s (s.grants k) :=
  (State.grantLoop_reacts ..).handled _


theorem State.giveBack_reacts (f : Nat) (s : State) : Reacts s (s.giveBack f) := by
  unfold State.giveBack
  repeat' first
    | with_reducible exact Reacts.refl _
    | with_reducible refine Reacts.trans ?_ (State.dropSlot_reacts ..)
    | with_reducible refine Reacts.trans ?_ (State.grants_reacts ..)
    | with_reducible refine Reacts.ite _ ?_ ?_
    | split

theorem State.fanLost_reacts (f : Nat) (s : State) : Reacts s (s.fanLost f) := by
  unfold State.fanLost
  repeat' first
    | with_reducible exact Reacts.refl _
    | with_reducible refine Reacts.trans ?_ (State.fanLostBare_reacts ..)
    | with_reducible refine Reacts.trans ?_ (State.grants_reacts ..)
    | with_reducible refine Reacts.ite _ ?_ ?_
    | split

theorem State.requestSlot_reacts (f : Nat) (s : State) : Reacts s (s.requestSlot f) := by
  unfold State.requestSlot
  repeat' first
    | with_reducible exact Reacts.refl _
    | with_reducible refine Reacts.trans ?_ (State.modFeeder_reacts ..)
    | with_reducible refine Reacts.trans ?_ (State.grants_reacts ..)
    | with_reducible refine Reacts.ite _ ?_ ?_
    | split

theorem State.startIfReady_reacts (f : Nat) (s : State) : Reacts s (s.startIfReady f) := by
  unfold State.startIfReady
  repeat' first
    | with_reducible exact Reacts.refl _
    | with_reducible refine Reacts.trans ?_ (State.enterFan_reacts ..)
    | with_reducible refine Reacts.trans ?_ (State.requestSlot_reacts ..)
    | with_reducible refine Reacts.ite _ ?_ ?_
    | split

theorem State.enterRunDown_reacts (f : Nat) (s : State) : Reacts s (s.enterRunDown f) := by
  unfold State.enterRunDown
  repeat' first
    | with_reducible exact Reacts.refl _
    | with_reducible refine Reacts.trans ?_ (State.modFan_reacts ..)

theorem State.runDownIfHere_reacts (f : Nat) (s : State) : Reacts s (s.runDownIfHere f) := by
  unfold State.runDownIfHere
  repeat' first
    | with_reducible exact Reacts.refl _
    | with_reducible refine Reacts.trans ?_ (State.enterRunDown_reacts ..)
    | with_reducible refine Reacts.ite _ ?_ ?_
    | split

theorem State.leaveFeeder_reacts (f : Nat) (s : State) : Reacts s (s.leaveFeeder f) := by
  unfold State.leaveFeeder
  split
  · exact .refl s
  · split
    · exact State.giveBack_reacts ..
    · exact State.withdraw_reacts ..

theorem State.breakStart_reacts (f : Nat) (mark : Bool) (s : State) : Reacts s (s.breakStart f mark) := by
  unfold State.breakStart
  repeat' first
    | with_reducible exact Reacts.refl _
    | with_reducible refine Reacts.trans ?_ (State.modFan_reacts ..)
    | with_reducible refine Reacts.trans ?_ (State.compareFan_reacts ..)
    | with_reducible refine Reacts.trans ?_ (State.giveBack_reacts ..)
    | with_reducible refine Reacts.trans ?_ (State.runDownIfHere_reacts ..)

theorem State.enterFault_reacts (f : Nat) (c : FaultCause) (s : State) : Reacts s (s.enterFault f c) := by
  unfold State.enterFault
  repeat' first
    | with_reducible exact Reacts.refl _
    | with_reducible refine Reacts.trans ?_ (State.modFan_reacts ..)
    | with_reducible refine Reacts.trans ?_ (State.enterFan_reacts ..)
    | with_reducible refine Reacts.trans ?_ (State.endPart_reacts ..)
    | with_reducible refine Reacts.trans ?_ (State.leaveFeeder_reacts ..)
    | with_reducible refine Reacts.ite _ ?_ ?_
    | split

theorem State.faultByCode_reacts (f : Nat) (s : State) : Reacts s (s.faultByCode f) := by
  unfold State.faultByCode
  split
  · exact Reacts.refl _
  · exact State.enterFault_reacts ..

theorem State.actOnTarget_reacts (f : Nat) (s : State) : Reacts s (s.actOnTarget f) := by
  unfold State.actOnTarget
  repeat' first
    | with_reducible exact Reacts.refl _
    | with_reducible refine Reacts.trans ?_ (State.modFan_reacts ..)
    | with_reducible refine Reacts.trans ?_ (State.enterFan_reacts ..)
    | with_reducible refine Reacts.trans ?_ (State.withdraw_reacts ..)
    | with_reducible refine Reacts.trans ?_ (State.startIfReady_reacts ..)
    | with_reducible refine Reacts.trans ?_ (State.breakStart_reacts ..)
    | with_reducible refine Reacts.ite _ ?_ ?_
    | split

theorem State.offerReset_reacts (f : Nat) (s : State) : Reacts s (s.offerReset f) := by
  unfold State.offerReset
  split
  · exact .refl s
  · rename_i r _
    split
    · have h := State.offer_reacts r.station
        { kind := .fanReset, payload := [byte r.index], origin := .fanReset f, held := 0 } s
      generalize s.offer r.station
        { kind := .fanReset, payload := [byte r.index], origin := .fanReset f, held := 0 } = x at h
      obtain ⟨a, u⟩ := x
      cases a with
      | accepted => exact Reacts.trans h (State.modFan_reacts ..)
      | unreachable => exact Reacts.trans h (State.fanLost_reacts ..)
      | full => exact h
      | placed => exact h
    · exact .refl s


theorem State.checkPart_reacts (f : Nat) (s : State) : Reacts s (s.checkPart f) := by
  unfold State.checkPart
  repeat' first
    | with_reducible exact Reacts.refl _
    | with_reducible refine Reacts.trans ?_ (State.modFan_reacts ..)
    | with_reducible refine Reacts.trans ?_ (State.endPart_reacts ..)
    | with_reducible refine Reacts.trans ?_ (State.offerReset_reacts ..)
    | with_reducible refine Reacts.ite _ ?_ ?_
    | split

theorem State.settleFan_reacts (f : Nat) (s : State) : Reacts s (s.settleFan f) := by
  unfold State.settleFan
  repeat' first
    | with_reducible exact Reacts.refl _
    | with_reducible refine Reacts.trans ?_ (State.compareFan_reacts ..)
    | with_reducible refine Reacts.trans ?_ (State.checkPart_reacts ..)

theorem State.writeRequest_reacts (f : Nat) (v : Speed) (s : State) : Reacts s (s.writeRequest f v) := by
  unfold State.writeRequest
  repeat' first
    | with_reducible exact Reacts.refl _
    | with_reducible refine Reacts.trans ?_ (State.modFan_reacts ..)
    | with_reducible refine Reacts.trans ?_ (State.actOnTarget_reacts ..)
    | with_reducible refine Reacts.trans ?_ (State.settleFan_reacts ..)
    | with_reducible refine Reacts.ite _ ?_ ?_
    | split

theorem State.plannerWrite_reacts (f : Nat) (v : Speed) (s : State) : Reacts s (s.plannerWrite f v) := by
  unfold State.plannerWrite
  repeat' first
    | with_reducible exact Reacts.refl _
    | with_reducible refine Reacts.trans ?_ (State.modFan_reacts ..)
    | with_reducible refine Reacts.trans ?_ (State.writeRequest_reacts ..)
    | with_reducible refine Reacts.ite _ ?_ ?_
    | split

theorem State.doorWrite_reacts (f : Nat) (v : Speed) (s : State) : Reacts s (s.doorWrite f v) := by
  unfold State.doorWrite
  repeat' first
    | with_reducible exact Reacts.refl _
    | with_reducible refine Reacts.trans ?_ (State.modFan_reacts ..)
    | with_reducible refine Reacts.trans ?_ (State.writeRequest_reacts ..)
    | with_reducible refine Reacts.ite _ ?_ ?_
    | split

theorem State.manualWrite_reacts (f : Nat) (v : Speed) (s : State) : Reacts s (s.manualWrite f v) := by
  unfold State.manualWrite
  repeat' first
    | with_reducible exact Reacts.refl _
    | with_reducible refine Reacts.trans ?_ (State.modFan_reacts ..)
    | with_reducible refine Reacts.trans ?_ (State.writeRequest_reacts ..)
    | with_reducible refine Reacts.ite _ ?_ ?_
    | split

theorem State.capJump_reacts (f : Nat) (s : State) : Reacts s (s.capJump f) := by
  unfold State.capJump
  repeat' first
    | with_reducible exact Reacts.refl _
    | with_reducible refine Reacts.trans ?_ (State.modFan_reacts ..)
    | with_reducible refine Reacts.trans ?_ (State.enterRunDown_reacts ..)
    | with_reducible refine Reacts.trans ?_ (State.breakStart_reacts ..)
    | with_reducible refine Reacts.ite _ ?_ ?_
    | split

theorem State.setCap_reacts (f : Nat) (cap : Nat) (s : State) : Reacts s (s.setCap f cap) := by
  unfold State.setCap
  repeat' first
    | with_reducible exact Reacts.refl _
    | with_reducible refine Reacts.trans ?_ (State.modFan_reacts ..)
    | with_reducible refine Reacts.trans ?_ (State.actOnTarget_reacts ..)
    | with_reducible refine Reacts.trans ?_ (State.settleFan_reacts ..)
    | with_reducible refine Reacts.trans ?_ (State.capJump_reacts ..)
    | with_reducible refine Reacts.ite _ ?_ ?_
    | split

theorem State.judgeRunning_reacts (f : Nat) (s : State) : Reacts s (s.judgeRunning f) := by
  unfold State.judgeRunning
  repeat' first
    | with_reducible exact Reacts.refl _
    | with_reducible refine Reacts.trans ?_ (State.modFan_reacts ..)
    | with_reducible refine Reacts.trans ?_ (State.enterFan_reacts ..)
    | with_reducible refine Reacts.ite _ ?_ ?_
    | split

theorem State.endDwell_reacts (f : Nat) (s : State) : Reacts s (s.endDwell f) := by
  unfold State.endDwell
  repeat' first
    | with_reducible exact Reacts.refl _
    | with_reducible refine Reacts.trans ?_ (State.modFan_reacts ..)
    | with_reducible refine Reacts.trans ?_ (State.enterFan_reacts ..)
    | with_reducible refine Reacts.trans ?_ (State.startIfReady_reacts ..)

theorem State.comeToRest_reacts (f : Nat) (s : State) : Reacts s (s.comeToRest f) := by
  unfold State.comeToRest
  repeat' first
    | with_reducible exact Reacts.refl _
    | with_reducible refine Reacts.trans ?_ (State.modFan_reacts ..)
    | with_reducible refine Reacts.trans ?_ (State.enterFan_reacts ..)
    | with_reducible refine Reacts.trans ?_ (State.startIfReady_reacts ..)
    | with_reducible refine Reacts.trans ?_ (State.endDwell_reacts ..)
    | with_reducible refine Reacts.ite _ ?_ ?_
    | split

theorem State.lockIfAtRest_reacts (f : Nat) (s : State) : Reacts s (s.lockIfAtRest f) := by
  unfold State.lockIfAtRest
  repeat' first
    | with_reducible exact Reacts.refl _
    | with_reducible refine Reacts.trans ?_ (State.modFan_reacts ..)
    | with_reducible refine Reacts.trans ?_ (State.enterFan_reacts ..)
    | with_reducible refine Reacts.trans ?_ (State.endPart_reacts ..)
    | with_reducible refine Reacts.ite _ ?_ ?_
    | split

theorem State.homeDone_reacts (f : Nat) (s : State) : Reacts s (s.homeDone f) :=
  (State.modFan_reacts ..).trans
    ((State.leaveFeeder_reacts ..).trans ((State.enterFan_reacts ..).trans (State.endPart_reacts ..)))

theorem State.judgeHome_reacts (f : Nat) (s : State) : Reacts s (s.judgeHome f) := by
  unfold State.judgeHome
  repeat' first
    | with_reducible exact Reacts.refl _
    | with_reducible refine Reacts.trans ?_ (State.modFan_reacts ..)
    | with_reducible refine Reacts.trans ?_ (State.homeDone_reacts ..)
    | with_reducible refine Reacts.trans ?_ (State.endPart_reacts ..)
    | with_reducible refine Reacts.trans ?_ (State.faultByCode_reacts ..)
    | with_reducible refine Reacts.ite _ ?_ ?_
    | split

theorem State.actOnHeartbeat_reacts (f : Nat) (s : State) : Reacts s (s.actOnHeartbeat f) := by
  unfold State.actOnHeartbeat
  repeat' first
    | with_reducible exact Reacts.refl _
    | with_reducible refine Reacts.trans ?_ (State.modFan_reacts ..)
    | with_reducible refine Reacts.trans ?_ (State.giveBack_reacts ..)
    | with_reducible refine Reacts.trans ?_ (State.startIfReady_reacts ..)
    | with_reducible refine Reacts.trans ?_ (State.judgeRunning_reacts ..)
    | with_reducible refine Reacts.trans ?_ (State.comeToRest_reacts ..)
    | with_reducible refine Reacts.ite _ ?_ ?_
    | split

theorem State.fanHeartbeat_reacts (f : Nat) (actual : Speed) (standstill : Bool) (code : Nat) (s : State) :
    Reacts s (s.fanHeartbeat f actual standstill code) := by
  unfold State.fanHeartbeat
  repeat' first
    | with_reducible exact Reacts.refl _
    | with_reducible refine Reacts.trans ?_ (State.modFan_reacts ..)
    | with_reducible refine Reacts.trans ?_ (State.faultByCode_reacts ..)
    | with_reducible refine Reacts.trans ?_ (State.settleFan_reacts ..)
    | with_reducible refine Reacts.trans ?_ (State.lockIfAtRest_reacts ..)
    | with_reducible refine Reacts.trans ?_ (State.judgeHome_reacts ..)
    | with_reducible refine Reacts.trans ?_ (State.actOnHeartbeat_reacts ..)
    | with_reducible refine Reacts.ite _ ?_ ?_

theorem State.startNotReady_reacts (f : Nat) (s : State) : Reacts s (s.startNotReady f) := by
  unfold State.startNotReady
  split
  · exact .refl s
  · extract_lets s1
    have h : Reacts s s1 := (State.modFan_reacts ..).trans (State.dropSlot_reacts ..)
    clear_value s1
    refine Reacts.ite _ ?_ ?_
    · exact h.trans (((State.enterFault_reacts f _ s1).trans (State.grants_reacts _ _)).trans (State.settleFan_reacts _ _))
    · exact h.trans ((((State.compareFan_reacts f s1).trans (State.requestSlot_reacts _ _)).trans
        (State.grants_reacts _ _)).trans (State.settleFan_reacts _ _))

theorem State.fanStepEnded_reacts (f : Nat) (start : Bool) (e : FrameEnding) (s : State) :
    Reacts s (s.fanStepEnded f start e) := by
  unfold State.fanStepEnded
  extract_lets s1
  have h : Reacts s s1 := State.modFan_reacts ..
  clear_value s1
  split
  · exact h
  · extract_lets phase
    have hu (u : State) : Reacts u (State.settleFan f (u.modFan f fun r => { r with lastSent := none })) :=
      (State.modFan_reacts f _ u).trans (State.settleFan_reacts _ _)
    split
    · refine h.trans (Reacts.trans ?_ (State.settleFan_reacts _ _))
      exact Reacts.ite _ (State.modFan_reacts ..) (.refl _)
    · exact h.trans (Reacts.ite _ (State.startNotReady_reacts ..) (hu s1))
    · exact h.trans ((State.enterFault_reacts ..).trans (State.settleFan_reacts _ _))
    · exact h.trans (hu s1)
    · exact h.trans (hu s1)

theorem State.fanResetEnded_reacts (f : Nat) (e : FrameEnding) (s : State) :
    Reacts s (s.fanResetEnded f e) := by
  unfold State.fanResetEnded
  repeat' first
    | with_reducible exact Reacts.refl _
    | with_reducible refine Reacts.trans ?_ (State.modFan_reacts ..)
    | with_reducible refine Reacts.trans ?_ (State.endPart_reacts ..)
    | with_reducible refine Reacts.trans ?_ (State.enterFault_reacts ..)
    | with_reducible refine Reacts.trans ?_ (State.settleFan_reacts ..)
    | with_reducible refine Reacts.ite _ ?_ ?_
    | split

theorem State.fanStepPlaced_reacts (f : Nat) (s : State) : Reacts s (s.fanStepPlaced f) := by
  unfold State.fanStepPlaced
  repeat' first
    | with_reducible exact Reacts.refl _
    | with_reducible refine Reacts.trans ?_ (State.modFan_reacts ..)

theorem State.stepExpiry_reacts (f : Nat) (s : State) : Reacts s (s.stepExpiry f) := by
  unfold State.stepExpiry
  repeat' first
    | with_reducible exact Reacts.refl _
    | with_reducible refine Reacts.trans ?_ (State.modFan_reacts ..)
    | with_reducible refine Reacts.trans ?_ (State.enterRunDown_reacts ..)
    | with_reducible refine Reacts.trans ?_ (State.settleFan_reacts ..)
    | with_reducible refine Reacts.trans ?_ (State.judgeRunning_reacts ..)
    | with_reducible refine Reacts.ite _ ?_ ?_
    | split

theorem State.energizeExpiry_reacts (f : Nat) (s : State) : Reacts s (s.energizeExpiry f) := by
  unfold State.energizeExpiry
  repeat' first
    | with_reducible exact Reacts.refl _
    | with_reducible refine Reacts.trans ?_ (State.enterFault_reacts ..)
    | with_reducible refine Reacts.trans ?_ (State.settleFan_reacts ..)
    | with_reducible refine Reacts.ite _ ?_ ?_
    | split

theorem State.rundownExpiry_reacts (f : Nat) (s : State) : Reacts s (s.rundownExpiry f) := by
  unfold State.rundownExpiry
  repeat' first
    | with_reducible exact Reacts.refl _
    | with_reducible refine Reacts.trans ?_ (State.endPart_reacts ..)
    | with_reducible refine Reacts.trans ?_ (State.enterFault_reacts ..)
    | with_reducible refine Reacts.trans ?_ (State.settleFan_reacts ..)
    | with_reducible refine Reacts.ite _ ?_ ?_
    | split

theorem State.dwellExpiry_reacts (f : Nat) (s : State) : Reacts s (s.dwellExpiry f) := by
  unfold State.dwellExpiry
  repeat' first
    | with_reducible exact Reacts.refl _
    | with_reducible refine Reacts.trans ?_ (State.settleFan_reacts ..)
    | with_reducible refine Reacts.trans ?_ (State.endDwell_reacts ..)
    | with_reducible refine Reacts.ite _ ?_ ?_
    | split

theorem State.adoptFan_reacts (f : Nat) (p : FanPage) (before : Nat) (s : State) :
    Reacts s (s.adoptFan f p before) := by
  unfold State.adoptFan
  repeat' first
    | with_reducible exact Reacts.refl _
    | with_reducible refine Reacts.trans ?_ (State.modFan_reacts ..)
    | with_reducible refine Reacts.trans ?_ (State.journalFan_reacts ..)
    | with_reducible refine Reacts.trans ?_ (State.actOnTarget_reacts ..)
    | with_reducible refine Reacts.trans ?_ (State.settleFan_reacts ..)
    | with_reducible refine Reacts.ite _ ?_ ?_
    | split

/-! ## Machine/Doors.lean -/

theorem State.recomputeCap_reacts (f : Nat) (s : State) : Reacts s (s.recomputeCap f) := by
  unfold State.recomputeCap
  split
  · exact .refl s
  · exact (State.setCap_reacts ..).handled _

theorem State.writePassage_reacts (force : Bool) (f : Nat) (s : State) : Reacts s (s.writePassage force f) := by
  unfold State.writePassage
  split
  · exact .refl s
  · refine Reacts.ite _ (.refl s) ?_
    exact (Reacts.setPassages s _ (List.length_set ..)).trans ((State.doorWrite_reacts ..).handled _)

theorem State.writePassageOf_reacts (d : Nat) (s : State) : Reacts s (s.writePassageOf d) := by
  unfold State.writePassageOf
  split
  · exact .refl s
  · exact State.writePassage_reacts ..

theorem State.recomputeCapsOf_reacts (d : Nat) (s : State) : Reacts s (s.recomputeCapsOf d) := by
  unfold State.recomputeCapsOf
  split
  · exact .refl s
  · exact Reacts.forEach _ State.recomputeCap_reacts _ _

theorem State.judgeSmoke_reacts (d : Nat) (s : State) : Reacts s (s.judgeSmoke d) := by
  unfold State.judgeSmoke
  repeat' first
    | with_reducible exact Reacts.refl _
    | with_reducible refine Reacts.trans ?_ (State.modDoor_reacts ..)
    | with_reducible refine Reacts.trans ?_ (State.journal_reacts ..)
    | with_reducible refine Reacts.trans ?_ (State.writePassageOf_reacts ..)
    | with_reducible refine Reacts.ite _ ?_ ?_
    | split

theorem State.endRunOn_reacts (d : Nat) (s : State) : Reacts s (s.endRunOn d) := by
  unfold State.endRunOn
  repeat' first
    | with_reducible exact Reacts.refl _
    | with_reducible refine Reacts.trans ?_ (State.modDoor_reacts ..)

theorem State.doorOpening_reacts (d : Nat) (s : State) : Reacts s (s.doorOpening d) := by
  unfold State.doorOpening
  repeat' first
    | with_reducible exact Reacts.refl _
    | with_reducible refine Reacts.trans ?_ (State.modDoor_reacts ..)
    | with_reducible refine Reacts.trans ?_ (State.writePassageOf_reacts ..)
    | with_reducible refine Reacts.trans ?_ (State.recomputeCapsOf_reacts ..)
    | with_reducible refine Reacts.trans ?_ (State.judgeSmoke_reacts ..)

theorem State.doorClosing_reacts (d : Nat) (s : State) : Reacts s (s.doorClosing d) := by
  unfold State.doorClosing
  repeat' first
    | with_reducible exact Reacts.refl _
    | with_reducible refine Reacts.trans ?_ (State.modDoor_reacts ..)
    | with_reducible refine Reacts.trans ?_ (State.writePassageOf_reacts ..)
    | with_reducible refine Reacts.trans ?_ (State.recomputeCapsOf_reacts ..)
    | with_reducible refine Reacts.trans ?_ (State.endRunOn_reacts ..)
    | with_reducible refine Reacts.ite _ ?_ ?_
    | split

theorem State.doorMoved_reacts (d : Nat) (old : DoorState) (new : DoorState) (s : State) :
    Reacts s (s.doorMoved d old new) := by
  unfold State.doorMoved
  repeat' first
    | with_reducible exact Reacts.refl _
    | with_reducible refine Reacts.trans ?_ (State.doorOpening_reacts ..)
    | with_reducible refine Reacts.trans ?_ (State.doorClosing_reacts ..)
    | with_reducible refine Reacts.ite _ ?_ ?_

theorem State.takeReported_reacts (d : Nat) (rep : Reported) (fromPage : Bool) (s : State) :
    Reacts s (s.takeReported d rep fromPage) := by
  unfold State.takeReported
  repeat' first
    | with_reducible exact Reacts.refl _
    | with_reducible refine Reacts.trans ?_ (State.modDoor_reacts ..)
    | with_reducible refine Reacts.trans ?_ (State.journal_reacts ..)
    | with_reducible refine Reacts.trans ?_ (State.doorMoved_reacts ..)
    | with_reducible refine Reacts.ite _ ?_ ?_
    | split

theorem State.holdExpired_reacts (d : Nat) (s : State) : Reacts s (s.holdExpired d) := by
  unfold State.holdExpired
  repeat' first
    | with_reducible exact Reacts.refl _
    | with_reducible refine Reacts.trans ?_ (State.modDoor_reacts ..)
    | with_reducible refine Reacts.trans ?_ (State.journal_reacts ..)

theorem State.runOnExpired_reacts (d : Nat) (s : State) : Reacts s (s.runOnExpired d) := by
  unfold State.runOnExpired
  repeat' first
    | with_reducible exact Reacts.refl _
    | with_reducible refine Reacts.trans ?_ (State.writePassageOf_reacts ..)
    | with_reducible refine Reacts.trans ?_ (State.endRunOn_reacts ..)

theorem State.endSignal_reacts (d : Nat) (out : OrderOutcome) (s : State) :
    Reacts s (s.endSignal d out) := by
  unfold State.endSignal
  repeat' first
    | with_reducible exact Reacts.refl _
    | with_reducible refine Reacts.trans ?_ (State.modDoor_reacts ..)
    | with_reducible refine Reacts.trans ?_ (State.complete_reacts ..)
    | with_reducible refine Reacts.ite _ ?_ ?_
    | split

theorem State.doorLost_reacts (d : Nat) (s : State) : Reacts s (s.doorLost d) := by
  unfold State.doorLost
  repeat' first
    | with_reducible exact Reacts.refl _
    | with_reducible refine Reacts.trans ?_ (State.modDoor_reacts ..)
    | with_reducible refine Reacts.trans ?_ (State.journal_reacts ..)
    | with_reducible refine Reacts.trans ?_ (State.doorMoved_reacts ..)
    | with_reducible refine Reacts.trans ?_ (State.endSignal_reacts ..)
    | with_reducible refine Reacts.ite _ ?_ ?_
    | split

theorem State.compareBeacon_reacts (d : Nat) (s : State) : Reacts s (s.compareBeacon d) := by
  unfold State.compareBeacon
  split
  · exact .refl s
  · rename_i r _
    refine Reacts.ite _ (.refl s) ?_
    have h := State.offer_reacts r.station
      { kind := .doorBeacon, payload := [byte r.index, byte (wantedMode s.plan r).code],
        origin := .beacon d (wantedMode s.plan r), held := 0 } s
    generalize s.offer r.station
      { kind := .doorBeacon, payload := [byte r.index, byte (wantedMode s.plan r).code],
        origin := .beacon d (wantedMode s.plan r), held := 0 } = x at h
    obtain ⟨a, u⟩ := x
    cases a with
    | accepted => exact Reacts.trans h (State.modDoor_reacts ..)
    | unreachable => exact Reacts.trans h (State.doorLost_reacts ..)
    | full => exact h
    | placed => exact h


theorem State.compareBeacons_reacts (s : State) : Reacts s s.compareBeacons :=
  Reacts.forEach _ State.compareBeacon_reacts _ _

theorem State.beaconPlaced_reacts (d : Nat) (s : State) : Reacts s (s.beaconPlaced d) := by
  unfold State.beaconPlaced
  repeat' first
    | with_reducible exact Reacts.refl _
    | with_reducible refine Reacts.trans ?_ (State.modDoor_reacts ..)

theorem State.beaconEnded_reacts (d : Nat) (mode : BeaconMode) (e : FrameEnding) (s : State) :
    Reacts s (s.beaconEnded d mode e) := by
  unfold State.beaconEnded
  extract_lets s1
  have h : Reacts s s1 := State.modDoor_reacts ..
  clear_value s1
  split
  · exact h
  · refine h.trans (Reacts.trans ?_ (State.compareBeacon_reacts ..))
    split
    · exact Reacts.ite _ (State.endSignal_reacts ..) (.refl _)
    · exact State.endSignal_reacts ..
    · exact State.endSignal_reacts ..

theorem State.smokeAtDoors_reacts (z : Nat) (s : State) : Reacts s (s.smokeAtDoors z) :=
  Reacts.forEach _ (fun d u => Reacts.ite _ (State.judgeSmoke_reacts d u) (.refl u)) _ _

theorem State.setDoorZone_reacts (d : Nat) (z : Option Nat) (s : State) :
    Reacts s (s.setDoorZone d z) := by
  unfold State.setDoorZone
  repeat' first
    | with_reducible exact Reacts.refl _
    | with_reducible refine Reacts.trans ?_ (State.modDoor_reacts ..)
    | with_reducible refine Reacts.trans ?_ (State.judgeSmoke_reacts ..)
    | with_reducible refine Reacts.trans ?_ (State.compareBeacon_reacts ..)
    | with_reducible refine Reacts.ite _ ?_ ?_
    | split

/-! ## Machine/Planner.lean -/

theorem State.planWrite_reacts (f : Nat) (v : Speed) (s : State) : Reacts s (s.planWrite f v) := by
  unfold State.planWrite
  split
  · exact .refl s
  · exact Reacts.ite _ ((State.modFan_reacts ..).trans ((State.plannerWrite_reacts ..).handled _)) (.refl s)

theorem State.selection_reacts (count : Nat) (s : State) : Reacts s (s.selection count) := by
  unfold State.selection
  exact (State.modPlan_reacts ..).trans (Reacts.foldl _ (fun _ _ => State.planWrite_reacts ..) _ _)


theorem State.evaluate_reacts (s : State) : Reacts s (s.evaluate ) := by
  unfold State.evaluate
  repeat' first
    | with_reducible exact Reacts.refl _
    | with_reducible refine Reacts.trans ?_ (State.modPlan_reacts ..)
    | with_reducible refine Reacts.trans ?_ (State.selection_reacts ..)
    | with_reducible refine Reacts.ite _ ?_ ?_

theorem State.fireSelection_reacts (s : State) : Reacts s (s.fireSelection ) := by
  unfold State.fireSelection
  repeat' first
    | with_reducible exact Reacts.refl _
    | with_reducible refine Reacts.trans ?_ (State.modPlan_reacts ..)
    | with_reducible refine Reacts.trans ?_ (State.selection_reacts ..)

theorem State.tunnelTold_reacts (level : Nat) (s : State) : Reacts s (s.tunnelTold level) := by
  unfold State.tunnelTold
  repeat' first
    | with_reducible exact Reacts.refl _
    | with_reducible refine Reacts.handled ?_ _
    | with_reducible refine Reacts.trans ?_ (State.modPlan_reacts ..)
    | with_reducible refine Reacts.trans ?_ (State.evaluate_reacts ..)
    | with_reducible refine Reacts.ite _ ?_ ?_

theorem State.judgeSmokeHold_reacts (s : State) : Reacts s (s.judgeSmokeHold ) := by
  unfold State.judgeSmokeHold
  repeat' first
    | with_reducible exact Reacts.refl _
    | with_reducible refine Reacts.trans ?_ (State.modPlan_reacts ..)
    | with_reducible refine Reacts.trans ?_ (State.evaluate_reacts ..)
    | with_reducible refine Reacts.ite _ ?_ ?_

theorem State.smokeTold_reacts (set : Bool) (s : State) : Reacts s (s.smokeTold set) := by
  unfold State.smokeTold
  repeat' first
    | with_reducible exact Reacts.refl _
    | with_reducible refine Reacts.trans ?_ (State.modPlan_reacts ..)
    | with_reducible refine Reacts.trans ?_ (State.judgeSmokeHold_reacts ..)

theorem State.configuredTold_reacts (z : Nat) (on : Bool) (s : State) :
    Reacts s (s.configuredTold z on) := by
  unfold State.configuredTold
  repeat' first
    | with_reducible exact Reacts.refl _
    | with_reducible refine Reacts.trans ?_ (State.modPlan_reacts ..)

theorem State.jetReleased_reacts (f : Nat) (s : State) : Reacts s (s.jetReleased f) := by
  unfold State.jetReleased
  split
  · exact .refl s
  · exact State.evaluate_reacts s
  · split
    · exact .refl s
    · exact (Reacts.ite _ (State.planWrite_reacts ..) (.refl s)).trans (State.fireSelection_reacts _)

theorem State.setFanZone_reacts (f : Nat) (z : Option Nat) (s : State) : Reacts s (s.setFanZone f z) := by
  unfold State.setFanZone
  split
  · exact .refl s
  · refine Reacts.ite _ (.refl s) ?_
    extract_lets s1
    have h : Reacts s s1 := State.modFan_reacts ..
    clear_value s1
    exact Reacts.ite _ (h.trans (State.planWrite_reacts ..)) h

theorem State.regimeTold_reacts (before : Regime) (s : State) : Reacts s (s.regimeTold before) := by
  unfold State.regimeTold
  exact (Reacts.ite _ (.refl s) (State.journal_reacts ..)).trans ((State.compareBeacons_reacts _).handled _)

theorem State.applyRegime_reacts (r : Regime) (s : State) : Reacts s (s.applyRegime r) := by
  unfold State.applyRegime
  cases r
  · exact (State.modPlan_reacts ..).trans (State.regimeTold_reacts ..)
  · exact ((State.modPlan_reacts ..).trans (State.evaluate_reacts _)).trans (State.regimeTold_reacts ..)
  · exact ((State.modPlan_reacts ..).trans (State.fireSelection_reacts _)).trans (State.regimeTold_reacts ..)

theorem State.enrolRegime_reacts (s : State) : Reacts s s.enrolRegime :=
  (State.applyRegime_reacts .off s).trans (State.modPlan_reacts ..)

/-! ## Machine/Zones.lean -/

theorem State.journalZoneLevel_reacts (z before : Nat) (s : State) : Reacts s (s.journalZoneLevel z before) :=
  Reacts.ite _ (.refl s) (State.journal_reacts ..)

theorem State.journalSmoke_reacts (z : Nat) (before : Bool) (s : State) : Reacts s (s.journalSmoke z before) :=
  Reacts.ite _ (.refl s) (State.journal_reacts ..)

theorem State.tellSmoke_reacts (z : Nat) (before : Bool) (s : State) : Reacts s (s.tellSmoke z before) := by
  unfold State.tellSmoke
  refine Reacts.ite _ (.refl s) ?_
  have h := (State.smokeTold_reacts ((s.zone z).latch) s).handled .planner
  exact Reacts.ite _ (h.trans ((State.smokeAtDoors_reacts z _).handled _)) h

theorem State.regradeAs_reacts (force : Force) (kinds : List (Nat × ChKind)) (s : State) :
    Reacts s (s.regradeAs force kinds) := by
  unfold State.regradeAs
  refine Reacts.ite _ (.refl s) ?_
  refine Reacts.trans ?_ (Reacts.forEach _ (fun _ _ => State.tellSmoke_reacts ..) _ _)
  refine Reacts.trans ?_ (Reacts.ite _ (.refl _) ((State.tunnelTold_reacts ..).handled _))
  refine Reacts.trans ?_ (Reacts.forEach _ (fun _ _ => State.journalSmoke_reacts ..) _ _)
  refine Reacts.trans ?_ (Reacts.ite _ (.refl _) (State.journal_reacts ..))
  refine Reacts.trans ?_ (Reacts.forEach _ (fun _ _ => State.journalZoneLevel_reacts ..) _ _)
  refine Reacts.trans ?_ (State.handledAs_reacts ..)
  refine Reacts.trans ?_ (Reacts.setTunnel _ _)
  refine Reacts.trans ?_ (Reacts.forEach _ (fun _ _ => State.modZone_reacts ..) _ _)
  exact Reacts.foldl _ (fun _ _ => State.modZone_reacts ..) _ _

theorem State.regrade_reacts (kinds : List (Nat × ChKind)) (s : State) : Reacts s (s.regrade kinds) :=
  State.regradeAs_reacts .none kinds s

theorem State.reportChannel_reacts (c : Nat) (s : State) : Reacts s (s.reportChannel c) := by
  unfold State.reportChannel
  repeat' first
    | with_reducible exact Reacts.refl _
    | with_reducible refine Reacts.trans ?_ (State.modZone_reacts ..)
    | with_reducible refine Reacts.trans ?_ (State.regrade_reacts ..)
    | with_reducible refine Reacts.ite _ ?_ ?_
    | split

theorem State.putKind_reacts (z : Nat) (k : ChKind) (new : ZoneKind) (s : State) : Reacts s (s.putKind z k new).2 :=
  State.modZone_reacts ..

theorem State.tellConfigured_reacts (before : State) (z : Nat) (s : State) :
    Reacts s (State.tellConfigured before z s) := by
  unfold State.tellConfigured
  exact Reacts.ite _ (.refl s) (State.configuredTold_reacts ..)

/-- One side of a move: the kind of the zone that a channel leaves or joins, if any. -/
theorem State.moveSide_reacts (o : Option Nat) (k : ChKind) (new : Nat → ZoneKind) (s : State)
    (x : List (Nat × ChKind) × State)
    (hx : (match o with | none => ([], s) | some z => s.putKind z k (new z)) = x) : Reacts s x.2 := by
  subst hx
  cases o with
  | none => exact .refl s
  | some z => exact State.putKind_reacts ..

theorem State.mapChannel_reacts (c : Nat) (dest : Option Nat) (s : State) : Reacts s (s.mapChannel c dest) := by
  unfold State.mapChannel
  split
  · exact .refl s
  · rename_i r _
    refine Reacts.ite _ (.refl s) ?_
    extract_lets before zs
    split
    rename_i g1 s1 h1
    have r1 : Reacts s s1 := State.moveSide_reacts r.zone r.kind
      (fun z => s.withoutMember (s.zone z).hold c r.kind ((s.zone z).kind r.kind)) s _ h1
    clear h1
    extract_lets s2
    have r2 : Reacts s1 s2 := State.modChannel_reacts ..
    clear_value s2
    split
    rename_i g2 s3 h2
    have r3 : Reacts s2 s3 := State.moveSide_reacts dest r.kind
      (fun z => s2.withMember (s2.zone z).hold (s2.zone z).fallback c r.kind ((s2.zone z).kind r.kind)) s2 _ h2
    clear h2
    exact (((r1.trans r2).trans r3).trans (Reacts.forEach _ (State.tellConfigured_reacts before) _ _)).trans
      (State.regrade_reacts ..)

theorem State.zoneHoldExpired_reacts (z : Nat) (k : ChKind) (s : State) :
    Reacts s (s.zoneHoldExpired z k) := by
  unfold State.zoneHoldExpired
  repeat' first
    | with_reducible exact Reacts.refl _
    | with_reducible refine Reacts.trans ?_ (State.modZone_reacts ..)
    | with_reducible refine Reacts.trans ?_ (State.regrade_reacts ..)
    | with_reducible refine Reacts.ite _ ?_ ?_

theorem State.applyZone_reacts (z : Nat) (held : Nat) (s : State) : Reacts s (s.applyZone z held) := by
  unfold State.applyZone
  repeat' first
    | with_reducible exact Reacts.refl _
    | with_reducible refine Reacts.trans ?_ (State.modZone_reacts ..)
    | with_reducible refine Reacts.trans ?_ (State.regrade_reacts ..)

theorem State.emptyZones_reacts (s : State) : Reacts s s.emptyZones := by
  unfold State.emptyZones
  refine Reacts.trans ?_ (State.regradeAs_reacts ..)
  refine Reacts.trans ?_ (Reacts.forEach _ (fun _ _ => State.tellConfigured_reacts ..) _ _)
  exact Reacts.setZones s _ (List.length_map ..)


/-! ## Machine/Channels.lean -/

theorem State.journalQuality_reacts (c : Nat) (before : Quality) (s : State) :
    Reacts s (s.journalQuality c before) := by
  unfold State.journalQuality
  repeat' first
    | with_reducible exact Reacts.refl _
    | with_reducible refine Reacts.trans ?_ (State.journal_reacts ..)
    | with_reducible refine Reacts.ite _ ?_ ?_
    | split

theorem State.gatherSample_reacts (c : Nat) (raw : Nat) (s : State) :
    Reacts s (s.gatherSample c raw) := by
  unfold State.gatherSample
  repeat' first
    | with_reducible exact Reacts.refl _
    | with_reducible refine Reacts.trans ?_ (State.modChannel_reacts ..)
    | with_reducible refine Reacts.trans ?_ (State.complete_reacts ..)
    | with_reducible refine Reacts.ite _ ?_ ?_
    | split

theorem State.takeSample_reacts (c : Nat) (raw : Nat) (marked : Bool) (s : State) :
    Reacts s (s.takeSample c raw marked) := by
  unfold State.takeSample
  split
  · exact .refl s
  · extract_lets code s1 s2 s3
    have h1 : Reacts s s1 := State.modChannel_reacts ..
    have h2 : Reacts s1 s2 := Reacts.ite _ (.refl _) (State.gatherSample_reacts ..)
    have h3 : Reacts s2 s3 := State.journalQuality_reacts ..
    have h := (h1.trans h2).trans h3
    clear_value s3
    split
    · exact h
    · exact Reacts.ite _ (h.trans (State.reportChannel_reacts ..)) h

theorem State.becomeStale_reacts (c : Nat) (s : State) : Reacts s (s.becomeStale c) := by
  unfold State.becomeStale
  repeat' first
    | with_reducible exact Reacts.refl _
    | with_reducible refine Reacts.trans ?_ (State.modChannel_reacts ..)
    | with_reducible refine Reacts.trans ?_ (State.reportChannel_reacts ..)
    | with_reducible refine Reacts.trans ?_ (State.journalQuality_reacts ..)
    | with_reducible refine Reacts.ite _ ?_ ?_
    | split

theorem State.endCapture_reacts (c : Nat) (out : OrderOutcome) (s : State) :
    Reacts s (s.endCapture c out) := by
  unfold State.endCapture
  repeat' first
    | with_reducible exact Reacts.refl _
    | with_reducible refine Reacts.trans ?_ (State.modChannel_reacts ..)
    | with_reducible refine Reacts.trans ?_ (State.completeBare_reacts ..)
    | with_reducible refine Reacts.ite _ ?_ ?_
    | split

theorem State.channelLost_reacts (c : Nat) (s : State) : Reacts s (s.channelLost c) := by
  unfold State.channelLost
  repeat' first
    | with_reducible exact Reacts.refl _
    | with_reducible refine Reacts.trans ?_ (State.modChannel_reacts ..)
    | with_reducible refine Reacts.trans ?_ (State.reportChannel_reacts ..)
    | with_reducible refine Reacts.trans ?_ (State.journalQuality_reacts ..)
    | with_reducible refine Reacts.trans ?_ (State.endCapture_reacts ..)
    | with_reducible refine Reacts.ite _ ?_ ?_
    | split

theorem State.channelAdopted_reacts (c : Nat) (s : State) : Reacts s (s.channelAdopted c) := by
  unfold State.channelAdopted
  repeat' first
    | with_reducible exact Reacts.refl _
    | with_reducible refine Reacts.trans ?_ (State.modChannel_reacts ..)
    | with_reducible refine Reacts.trans ?_ (State.reportChannel_reacts ..)
    | with_reducible refine Reacts.ite _ ?_ ?_
    | split

end Sys2Proof.Machine
end

