-- ==== Sys2Proof/Laws/Image.lean ====
section
/-! SUPPORT. What an update of the status image can do (R172): it writes image places and nothing else, keeps the window's
canonical form, and does nothing when nothing has changed. -/

namespace Sys2Proof.Machine

/-- Every entry has the size its table gives it. -/
theorem State.imageEntry_length (s : State) (t : Table) (k : Nat) : (s.imageEntry t k).length = t.size := by
  cases t with
  | ring => simp only [State.imageEntry, State.ringEntry, padTo_length, Table.size]
  | regime => simp only [State.imageEntry, State.regimeEntry, padTo_length, Table.size]
  | feeders => simp only [State.imageEntry, Feeder.entry, padTo_length, Table.size]
  | stations =>
    simp only [State.imageEntry, State.stationEntry, Table.size]
    split
    · simp only [List.length_replicate]
    · simp only [padTo_length]
  | channels =>
    simp only [State.imageEntry, Table.size]
    split
    · simp only [noneEntry, padTo_length]
    · rfl
  | zones => simp only [State.imageEntry, Zone.entry, padTo_length, Table.size]
  | fans =>
    simp only [State.imageEntry, Table.size]
    split
    · simp only [noneEntry, padTo_length]
    · rfl
  | doors =>
    simp only [State.imageEntry, Table.size]
    split
    · simp only [noneEntry, padTo_length]
    · rfl

/-- The entries of a table lie in the image. -/
theorem Table.entry_imagePlace (t : Table) (k i : Nat) (hk : k < t.count) (hi : i < t.size) :
    imagePlace (t.base + t.size * k + i) := by
  unfold imagePlace
  cases t <;> simp only [Table.count, Table.size, Table.base] at * <;> omega

/-- The counters of a table lie among the image counters. -/
theorem Table.counter_imagePlace (t : Table) (i : Nat) (hi : i < 8) : imagePlace (counterAt t.index + i) := by
  unfold imagePlace counterAt
  cases t <;> simp only [Table.index] <;> omega

/-- Bytes stored at image places leave the rest of a canonical window as it was, and canonical. -/
theorem Memory.writeBytes_image (m : List Host.Cell) (a : Nat) (bs : List Byte) (h : Memory.wf m = true)
    (hp : ∀ i < bs.length, imagePlace (a + i)) :
    Memory.wf (Memory.writeBytes m a bs) = true ∧
      ∀ c, ¬imagePlace c → Memory.read (Memory.writeBytes m a bs) c = Memory.read m c := by
  refine ⟨Memory.writeBytes_wf bs m a h, fun c hc => ?_⟩
  rw [Memory.read_writeBytes bs m a c h]
  split
  · rename_i hin
    exact absurd (by simpa [show a + (c - a) = c by omega] using hp (c - a) (by omega)) hc
  · rfl

/-- The pieces of an entry that a writer writes lie within the entry. -/
theorem Writer.pieces_within (w : Writer) (t : Table) (e : List Byte) (he : e.length = t.size) :
    ∀ p ∈ w.pieces t e, p.1 + p.2.length ≤ t.size := by
  intro p hp
  cases t <;> simp only [Writer.pieces] at hp
  case stations =>
    simp only [Table.size] at he ⊢
    split at hp
    · simp only [List.mem_cons, List.not_mem_nil, or_false] at hp
      rcases hp with rfl | rfl <;> simp only [List.length_take, List.length_drop] <;> omega
    · simp only [List.mem_cons, List.not_mem_nil, or_false] at hp
      rcases hp with rfl | rfl | rfl <;> simp only [List.length_take, List.length_drop] <;> omega
  all_goals
    simp only [List.mem_cons, List.not_mem_nil, or_false] at hp
    subst hp
    simp only at he ⊢
    omega

/-- The entries an update may write are entries of the table. -/
theorem State.changedEntries_lt (s : State) (u : ImageUpdate) (t : Table) (k : Nat) (h : k ∈ s.changedEntries u t) :
    k < t.count := by
  unfold State.changedEntries at h
  split at h
  · simpa using h
  · simpa using List.mem_of_mem_filter h
  · split at h
    · simp at h
    · simpa using List.mem_of_mem_filter h

/-- Pieces within an entry are laid at image places only. -/
theorem writePieces_image (t : Table) (k : Nat) (hk : k < t.count) (ps : List (Nat × List Byte))
    (hp : ∀ p ∈ ps, p.1 + p.2.length ≤ t.size) (m : List Host.Cell) (h : Memory.wf m = true) :
    Memory.wf (writePieces (t.base + t.size * k) m ps) = true ∧
      ∀ c, ¬imagePlace c → Memory.read (writePieces (t.base + t.size * k) m ps) c = Memory.read m c := by
  unfold writePieces
  induction ps generalizing m with
  | nil => exact ⟨h, fun _ _ => rfl⟩
  | cons p ps ih =>
    have hb := hp p (by simp)
    have h1 := Memory.writeBytes_image m (t.base + t.size * k + p.1) p.2 h fun i hi => by
      rw [Nat.add_assoc]
      exact Table.entry_imagePlace t k (p.1 + i) hk (by omega)
    have h2 := ih (fun q hq => hp q (by simp [hq])) _ h1.1
    exact ⟨h2.1, fun c hc => (h2.2 c hc).trans (h1.2 c hc)⟩

/-- The writes of several steps keep the canonical form and the places outside the image, if each does. -/
theorem foldl_image {α β : Type} (mem : β → List Host.Cell) (f : β → α → β) (l : List α)
    (hf : ∀ a ∈ l, ∀ x, Memory.wf (mem x) = true → Memory.wf (mem (f x a)) = true ∧
      ∀ c, ¬imagePlace c → Memory.read (mem (f x a)) c = Memory.read (mem x) c)
    (x : β) (h : Memory.wf (mem x) = true) :
    Memory.wf (mem (l.foldl f x)) = true ∧
      ∀ c, ¬imagePlace c → Memory.read (mem (l.foldl f x)) c = Memory.read (mem x) c := by
  induction l generalizing x with
  | nil => exact ⟨h, fun _ _ => rfl⟩
  | cons a l ih =>
    have h1 := hf a (by simp) x h
    have h2 := ih (fun b hb => hf b (by simp [hb])) (f x a) h1.1
    exact ⟨h2.1, fun c hc => (h2.2 c hc).trans (h1.2 c hc)⟩

/-- One update of a table writes image places only. -/
theorem State.updateTable_image (s : State) (u : ImageUpdate) (t : Table) (x : List Host.Cell × List (BitVec 32))
    (h : Memory.wf x.1 = true) :
    Memory.wf (s.updateTable u x t).1 = true ∧
      ∀ c, ¬imagePlace c → Memory.read (s.updateTable u x t).1 c = Memory.read x.1 c := by
  unfold State.updateTable
  extract_lets es n m m'
  split
  · exact ⟨h, fun _ _ => rfl⟩
  · have h1 := Memory.writeBytes_image x.1 (counterAt t.index) (le32 n.toNat) h fun i hi =>
      Table.counter_imagePlace t i (by simp only [le32_length] at hi; omega)
    have h2 := foldl_image id
      (fun m k => writePieces (t.base + t.size * k) m (u.writer.pieces t (s.entryAt u.after t k))) es
      (fun k hk m hm => writePieces_image t k (s.changedEntries_lt u t k hk) _
        (u.writer.pieces_within t _ (State.imageEntry_length ..)) m hm) m h1.1
    have h3 := Memory.writeBytes_image m' (counterAt t.index + 4) (le32 n.toNat) h2.1 fun i hi => by
      rw [Nat.add_assoc]
      exact Table.counter_imagePlace t (4 + i) (by simp only [le32_length] at hi; omega)
    exact ⟨h3.1, fun c hc => ((h3.2 c hc).trans (h2.2 c hc)).trans (h1.2 c hc)⟩

/-- What bringing up the image keeps: all but the window and the counters; the record of the events is that of before the
step. -/
theorem State.refresh_frame (old s : State) :
    State.refresh old s =
      { s with
        mem := (State.refresh old s).mem, imageCounts := (State.refresh old s).imageCounts, events := old.events } := by
  unfold State.refresh
  split <;> rfl

/-- The updates of a step write image places only and keep the canonical form. -/
theorem State.refresh_mem (old s : State) (h : Memory.wf s.mem = true) :
    Memory.wf (State.refresh old s).mem = true ∧
      ∀ a, ¬imagePlace a → (State.refresh old s).readByte a = s.readByte a := by
  unfold State.refresh
  split
  · exact ⟨h, fun _ _ => rfl⟩
  · exact foldl_image Prod.fst s.updateTables (State.imageUpdates old s)
      (fun u _ x hx => foldl_image Prod.fst (s.updateTable u) u.writer.tables
        (fun t _ y hy => s.updateTable_image u t y hy) x hx) (s.mem, s.imageCounts) h

/-! ## When nothing has changed -/

/-- A table that shows what it showed has no changed entry. -/
theorem Table.untouched_self (b : Shown) (t : Table) : t.untouched b b = true := by
  cases t <;> simp [Table.untouched]

/-- A table that stands untouched shows what it showed. -/
theorem State.untouched_entry {s : State} {old new : Shown} {t : Table} (h : t.untouched old new = true) (k : Nat) :
    s.entryAt old t k = s.entryAt new t k := by
  unfold State.entryAt
  cases t <;> simp only [Table.untouched, Bool.and_eq_true, beq_iff_eq] at h
  · obtain ⟨⟨⟨⟨h1, h2⟩, h3⟩, h4⟩, h5⟩ := h
    simp [State.withShown, State.imageEntry, State.ringEntry, State.healCounted, State.sideCount, State.stationNumbers,
      State.sideOf, State.station, h1, h2, h3, h4, h5]
  · obtain ⟨h1, h2⟩ := h
    simp [State.withShown, State.imageEntry, State.regimeEntry, State.planSeconds, State.candidatesNow, State.candidates,
      State.numberedFans, State.fan, h1, h2]
  · simp [State.withShown, State.imageEntry, State.feeder, h]
  · obtain ⟨h1, h2⟩ := h
    simp [State.withShown, State.imageEntry, State.stationEntry, State.station, State.entry, h1, h2]
  · simp [State.withShown, State.imageEntry, State.channel, h]
  · simp [State.withShown, State.imageEntry, State.zone, h]
  · simp [State.withShown, State.imageEntry, State.fan, h]
  · obtain ⟨h1, h2⟩ := h
    simp [State.withShown, State.imageEntry, State.door, h1, h2]

/-- The entries that an event without a forced rewriting makes its writer write are those that have changed. -/
theorem State.mem_changedEntries (s : State) (u : ImageUpdate) (t : Table) (hf : u.force = .none) (k : Nat) :
    k ∈ s.changedEntries u t ↔ k < t.count ∧ s.entryChanged u t k = true := by
  unfold State.changedEntries
  rw [hf]
  dsimp only
  split
  · rename_i h
    simp [State.entryChanged, State.untouched_entry h k]
  · simp

/-- An event that has changed nothing updates no table. -/
theorem State.updateTables_same (s : State) (w : Writer) (b : Shown) (x : List Host.Cell × List (BitVec 32)) :
    s.updateTables x { writer := w, force := .none, before := b, after := b } = x := by
  have h (t : Table) (y : List Host.Cell × List (BitVec 32)) :
      s.updateTable { writer := w, force := .none, before := b, after := b } y t = y := by
    simp [State.updateTable, State.changedEntries, Table.untouched_self]
  unfold State.updateTables
  induction w.tables generalizing x with
  | nil => rfl
  | cons t l ih => rw [List.foldl_cons, h, ih]

/-- A step that changes nothing and in which nothing was handled leaves the image as it is. -/
theorem State.refresh_same (s : State) : State.refresh s s = s := by
  unfold State.refresh
  split
  · rfl
  · have : State.imageUpdates s s =
        Writer.all.map fun w => { writer := w, force := .none, before := s.shown, after := s.shown } := by
      simp [State.imageUpdates, Writer.all, imageUpdatesFrom, lastShown]
    rw [this]
    simp [Writer.all, State.updateTables_same]

end Sys2Proof.Machine
end

