-- ==== Sys2Proof/Tests/Slice0.lean ====
section
/-! SUPPORT. Tests. The expected results come from the worked sequences of spec/ and from its tables, worked out by hand;
each test names its source. Then the witnesses: for each statement with hypotheses, concrete states and operands that
meet them, clause by clause. -/

namespace Sys2Proof.Tests

open Sys2Proof.Machine

set_option Elab.async false

/-! ## States to start from -/

/-- The outcome is a next state with this property. -/
def answers (o : Host.Outcome State Fault Refusal) (p : State → Bool) : Bool :=
  match o with
  | .next t => p t
  | .fault _ => false
  | .refused _ => false

/-- The part is READY and idle. -/
def idle : State := { State.reset with formatting := none, clock := 100000 }

/-- A station that is UP, with 4 fans, 8 channels, 2 doors and the last parameter 99. -/
def stationUp : Station :=
  { Station.created 0 with
    link := .up
    base := some { kind := 0, fans := 4, channels := 8, doors := 2, lastParam := 99, chainage := 500 } }

def emptyTrain : SentTrain := { frames := [], assign := List.replicate 16 0, accepted := true }

/-- The ring is CLOSED with two stations UP, cycle 200 in progress and its train back. -/
def closed : State :=
  { idle with
    sigA := true
    sigB := true
    ring := { Ring.reset with
      state := .closed, cycle := 200, opened := 200, timer := some { start := 99990#32, dur := 10 },
      trainA := some emptyTrain }
    stations := [stationUp, stationUp] }

def enrolling : State := { closed with ring := { closed.ring with state := .enrolling } }
def folded : State := { closed with ring := { closed.ring with state := .folded } }

/-- A STOPPED reversible jet fan of station 1 on feeder 2 with top step 8, its last-sent values known. -/
def jet : Fan :=
  { Fan.numbered 1 0
      { kind := .jet, reversible := true, top := 8, feeder := 2, actual := { step := 0, dir := .plus }, runMinutes := 0 } with
    lastSent := some { step := 0, dir := .plus } }

/-- The jet fan running at a step and direction. -/
def jetAt (v : Speed) : Fan :=
  { jet with state := .running, requested := v, commanded := v, lastSent := some v, actual := v }

/-- The fan 31 of 8.9: a passage fan on feeder 1 with top step 6. -/
def passage : Fan := { jet with kind := .passage, top := 6, cap := 6, feeder := 1, index := 1 }

def co : Channel := Channel.numbered 100000 1 0 { kind := .co, zero := 800, gain := 3840 }

/-- The door 3 of 8.9, on station 1. -/
def door : Door :=
  { Door.numbered 1 0 { kind := .hinged, state := .closed, passage := some 1 } (some 31) with
    state := .closed, zone := some 7, confirmed := some .dark }

def withFan (f : Nat) (r : Fan) (s : State) : State := { s with fans := s.fans.set f (some r) }
def withChannel (c : Nat) (r : Channel) (s : State) : State := { s with channels := s.channels.set c (some r) }
def withDoor (d : Nat) (r : Door) (s : State) : State := { s with doors := s.doors.set d (some r) }
def withZone (z : Nat) (r : Zone) (s : State) : State := { s with zones := s.zones.set z r }
def withFeeder (k : Nat) (r : Feeder) (s : State) : State := { s with feeders := s.feeders.set k r }
def withPlan (g : Planner → Planner) (s : State) : State := { s with plan := g s.plan }
def withStations (l : List Station) (s : State) : State := { s with stations := l }

/-- An order stands POSTED in slot 0 at the head of the intake queue. -/
def posted (code : Nat) (body : List Byte) (s : State) : State :=
  { s with
    intake := [0]
    mem := Memory.writeBytes (Memory.writeBytes s.mem 0x0200 [1, byte code]) 0x0210 body }

/-- The outcome code of the order in slot 0, once it is DONE. -/
def outcome (t : State) : Option Byte := if t.readByte 0x0200 = 3 then some (t.readByte 0x0202) else none

/-- A present kind of a zone with a value. -/
def present (members : List Nat) (v : Int) : ZoneKind :=
  { ZoneKind.reset with members := members, vstate := .present, value := v }

/-! ## Ill-formed commands -/

theorem test_soft_reset_needs_bit7 : (Instr.softReset 0x3F).wellFormed = false := by decide
theorem test_mask_write_has_no_bit7 : (Instr.ctrlMaskWrite 0x80).wellFormed = false := by decide
theorem test_attn_store_in_window : (Instr.attnWrite 0 [(0x8000, 1)]).wellFormed = false := by decide
theorem test_post_store_in_window : (Instr.postWrite 0 [(0x8000, 1)]).wellFormed = false := by decide
theorem test_reply_limit_tag : (Instr.replyLimitExpiry 64).wellFormed = false := by decide
theorem test_rest_tag : (Instr.tagRestEnd 64).wellFormed = false := by decide
theorem test_held_station : (Instr.heldFrameExpiry 25).wellFormed = false := by decide
theorem test_page_station : (Instr.pageTimeout 0).wellFormed = false := by decide
theorem test_pending_station : (Instr.pendingTimeout 25).wellFormed = false := by decide
theorem test_stale_channel : (Instr.staleExpiry 96).wellFormed = false := by decide
theorem test_hold_zone : (Instr.zoneHoldExpiry 16 .co).wellFormed = false := by decide
theorem test_step_fan : (Instr.stepIntervalExpiry 48).wellFormed = false := by decide
theorem test_energize_fan : (Instr.energizeLimitExpiry 48).wellFormed = false := by decide
theorem test_rundown_fan : (Instr.rundownLimitExpiry 48).wellFormed = false := by decide
theorem test_dwell_fan : (Instr.reverseDwellExpiry 48).wellFormed = false := by decide
theorem test_hold_door : (Instr.doorHoldExpiry 32).wellFormed = false := by decide
theorem test_run_on_door : (Instr.runOnExpiry 32).wellFormed = false := by decide

/-! ## The queue -/

/-- The step takes the front of the queue and leaves the rest. -/
theorem test_step_takes_front :
    answers (step { idle with pending := [.ctrlMaskWrite 0x25, .idWrite 0] })
      (fun t => t.pending == [.idWrite 0] && t.mask == 0x25#6) = true := by decide

/-- No row has bits, so no word spells a command. -/
theorem test_no_word_spells : decodeTableWord 32 7 = none ∧ (idle.withFetchWord 32 7) = idle := by decide

/-! ## Resets and registers (chapter 10) -/

/-- R174: a power-on reset clears mask, attention bits, READY and the ring. -/
theorem test_power_on_reset :
    answers (exec .powerOnReset { closed with mask := 63, attn := 63, mem := [(2, 1)] })
      (fun t => t.mask == 0#6 && t.attn == 0#6 && t.readByte 2 == 0 && t.ring.state == .idle &&
        t.stations.length == 0) = true := by decide

/-- R164: CTRL bit 7 is the soft reset. -/
theorem test_soft_reset :
    answers (exec (.softReset 0x80) closed) (fun t => t.formatting == some .soft && t.clock == 0) = true := by decide

/-- R174: with no formatting under way there is none to end (log 5). -/
theorem test_reset_done :
    answers (exec .resetDone { State.reset with formatting := none }) (fun t => t == { State.reset with formatting := none }) =
      true := by decide +kernel

/-- R174, R185: the image that the formatting writes shows a fan entry NONE and the default interval of 10 ms. -/
theorem test_formatted_entries :
    (State.reset.imageEntry .fans 0).take 2 = [0xFF, 0] ∧
      ((State.reset.imageEntry .ring 0).drop 8).take 4 = [10, 0, 0xD0, 7] := by decide +kernel

/-- R184: the RESET DONE record of a power-on reset at position 0 carries the layout version 1. -/
theorem test_reset_done_record :
    (let t := State.reset.journal .resetDone 0 1 0
    t.jWrite == 1 && t.attn == 2#6 &&
      t.readBytes 0x1200 16 == [0, 0, 1, 0, 0, 0, 0, 0, 0, 0, 1, 0, 0, 0, 0, 0]) = true := by decide +kernel

/-- R164: CTRL stores the six mask bits. -/
theorem test_ctrl_mask : answers (exec (.ctrlMaskWrite 0x65) idle) (fun t => t.mask == 0x25#6) = true := by decide

/-- R164: writing 1 to a set bit clears it. -/
theorem test_attn_write :
    answers (exec (.attnWrite 0x05 [(0x3600, 9)]) { idle with attn := 0x3F })
      (fun t => t.attn == 0x3A#6 && t.readByte 0x3600 == 9) = true := by decide

/-- 10.9: POST 4 again is refused ALREADY QUEUED. -/
theorem test_post_again :
    answers (exec (.postWrite 4 []) { idle with intake := [3, 4], mem := [(0x02C0, 1), (0x0300, 1)] })
      (fun t => t.intake == [3, 4] && t.readBytes 0x0E 2 == [4, 3] && t.attn == 4#6) = true := by decide

/-- 10.9: POST 70 is refused OUT OF RANGE. -/
theorem test_post_70 :
    answers (exec (.postWrite 70 []) { idle with intake := [3, 4] })
      (fun t => t.intake == [3, 4] && t.readBytes 0x0E 2 == [70, 2]) = true := by decide

/-- R164: a write to ID is ignored. -/
theorem test_id_write : exec (.idWrite 0xFFFFFFFF) idle = .next idle := rfl

/-- 10.9: slot 4 is found not POSTED and dropped WITHDRAWN. -/
theorem test_slot_withdrawn :
    answers (exec .slotWithdrawn { idle with intake := [4] })
      (fun t => t.intake == [] && t.readBytes 0x0E 2 == [4, 4] && t.attn == 4#6) = true := by decide

/-- R167: an order code that R183 does not list ends BAD ORDER. -/
theorem test_unknown_order : answers (exec .unknownOrderCode (posted 0x1B [] idle)) (fun t => outcome t == some 0x10) = true := by
  decide

/-- 10.10: a door event finds room for a GAP record only, which carries the count 2. -/
theorem test_journal_gap :
    (let s := { idle with mem := [(0x08, 10), (0x0A, 12)], jWrite := 10, jGap := 2, jSeq := 4000 }
    let t := s.journal .doorState 3 1 2
    t.jWrite == 11 && t.jGap == 1 && t.jSeq == 4001 && t.attn == 0xA#6 &&
      t.readBytes 0x12A0 3 == [0xA0, 0x0F, 0] && t.readBytes 0x12AA 2 == [2, 0]) = true := by decide

/-- 10.10: the next event finds room for a GAP record and itself. -/
theorem test_journal_after_gap :
    (let s := { idle with mem := [(0x08, 11), (0x0A, 16)], jWrite := 11, jGap := 1, jSeq := 4001 }
    let t := s.journal .regime 7 1 2
    t.jWrite == 13 && t.jGap == 0 && t.jSeq == 4003 && t.readByte 0x12C2 == 17) = true := by decide

/-! ## Orders of the ring (chapters 1, 2 and 10) -/

/-- R25, R26: from IDLE the first train carries CLEAR ADDRESS and TAKE ADDRESS with value 1. -/
theorem test_enrol :
    (let t := (posted 1 [] { idle with sigB := true }).takeOrder 1 State.enrolOrder
    t.ring.state == .enrolling && t.readByte 0x0200 == 2 && t.ring.cycle == 1 &&
      (t.ring.trainA.map (·.frames)) == some [.wide .clearAddress, .wide (.takeAddress 1 false)]) = true := by
  decide +kernel

/-- R168: ENROL in FOLDED ends RING FOLDED. -/
theorem test_enrol_folded :
    answers (exec .enrol (posted 1 [] folded)) (fun t => outcome t == some 0x17) = true := by decide +kernel

/-- R3: 12 ms is rounded down to 10, a heal time of 100 is brought to 500. -/
theorem test_set_ring :
    answers (exec .setRing (posted 2 [12, 0, 100, 0] closed))
      (fun t => t.ring.interval == 10 && t.ring.healTime == 500 && outcome t == some 1) = true := by decide +kernel

/-- R42: the snapshot shows the address, the link state UP, and the last parameter at offset 12. -/
theorem test_sense_station :
    answers (exec .senseStation (posted 3 [2] closed))
      (fun t => outcome t == some 0 && t.readBytes 0x0210 2 == [2, 3] && t.readByte 0x021C == 99) = true := by decide

/-- R42: an address without a record ends NO SUCH UNIT. -/
theorem test_sense_nobody :
    answers (exec .senseStation (posted 3 [3] closed)) (fun t => outcome t == some 0x14) = true := by decide

/-- R43: the counts and WAS DOWN of the named station are cleared, the other station keeps its own. -/
theorem test_clear_counts :
    answers (exec .clearCounts (posted 4 [1] (withStations
        [{ stationUp with errors := 3, linkDowns := 2, wasDown := true }, { stationUp with errors := 5 }] closed)))
      (fun t => t.stations == [stationUp, { stationUp with errors := 5 }]) = true := by decide

/-- R22, R44, R172: the ring controller shows the cleared error count and the link monitor the cleared WAS DOWN, each by an
update of the station table of its own; what only one of them shows is one update. -/
theorem test_clear_counts_two_writers :
    (let raised (r : Station) (n : BitVec 32) : Bool := answers (exec .clearCounts (posted 4 [1] (withStations [r] closed)))
      fun t => t.imageCounts.getD 3 0 == n
    raised { stationUp with errors := 3, wasDown := true } 2 && raised { stationUp with errors := 3 } 1 &&
      raised stationUp 0) = true := by decide +kernel

/-- R171: the ABORT's own slot is no long order. -/
theorem test_abort_not_active :
    answers (exec .abort (posted 0x1A [0] closed)) (fun t => outcome t == some 0x23) = true := by decide

/-- R171: a slot number of 64 ends BAD PARAMETER. -/
theorem test_abort_number :
    answers (exec .abort (posted 0x1A [64] closed)) (fun t => outcome t == some 0x11) = true := by decide

/-! ## Channels (chapter 4) -/

/-- The CO channel of 4.9 with filter shift 2. -/
def coWorked : Channel := { co with shift := 2 }

/-- 4.9: the first two samples, 2400 and 2613. -/
theorem test_co_samples :
    (let a := coWorked.take 0 2400 false
    let b := a.take 0 2613 false
    a.acc == 384000 && a.value == 1500 && a.quality == .good && b.acc == 396736 && b.value == 1550) = true := by decide

/-- 4.9: the third sample is clamped, the fourth is suspect and skipped. -/
theorem test_co_clamped_and_skipped :
    (let c := { coWorked with acc := 396736, value := 1550, quality := .good, seedDue := false }.take 0 700 false
    let d := c.take 0 600 false
    c.acc == 297552 && c.value == 1162 && c.clamped && d.acc == 297552 && d.quality == .suspect && d.clamped) = true := by
  decide

/-- 4.10: conversions and filter steps floor toward minus infinity. -/
theorem test_airv_samples :
    (let c : Channel :=
      { co with
        kind := .airv, zero := 2048, gain := 4002, shift := 1, acc := -25600, value := -100, quality := .good, seedDue := false }
    let a := c.take 0 1943 false
    let b := a.take 0 1943 false
    let d := b.take 0 1995 false
    a.value == -101 && b.value == -102 && d.acc == -19744 && d.value == -77) = true := by decide

/-- R74: a shift of 9 is brought to 7 and a stale time of 0 to 1. -/
theorem test_set_channel :
    answers (exec .setChannel (posted 6 [20, 0x24, 0, 0, 0, 0, 9, 0, 0, 0, 0] (withChannel 20 co closed)))
      (fun t => (t.channel 20).any fun c => c.shift == 7 && c.stale == 1 && outcome t == some 1 &&
        t.readByte 0x0210 == 0x3F) = true := by
  decide +kernel

/-- R76: a LOST channel ends UNREACHABLE. -/
theorem test_capture_lost :
    answers (exec .captureZero (posted 7 [20] (withChannel 20 { co with quality := .lost } closed)))
      (fun t => outcome t == some 0x30 && t.readWord 0x020C == 1) = true := by decide

/-- R77: eight samples of 800 to 807 make the new zero 803, their mean rounded down. -/
theorem test_capture_mean :
    (let s := withChannel 20 { co with under := 0, capture := some { slot := 0, count := 7, sum := 5621, lowest := 800, highest := 806 } } closed
    let t := s.takeSample 20 807 false
    (t.channel 20).any fun c => c.zero == 803 && c.capture == none) = true := by decide

/-- 4.11: the stale expiry falls 5 s after the last feed. -/
theorem test_stale_expiry :
    answers (exec (.staleExpiry 20) (withChannel 20 { co with quality := .suspect, lastFeed := 95000 } closed))
      (fun t => (t.channel 20).any fun c => c.quality == .stale && c.seedDue) = true := by decide +kernel

/-- 4.11: a millisecond earlier nothing happens. -/
theorem test_stale_too_early :
    answers (exec (.staleExpiry 20) (withChannel 20 { co with quality := .suspect, lastFeed := 95001 } closed))
      (fun t => (t.channel 20).any fun c => c.quality == .suspect) = true := by decide

/-! ## Zones (chapter 5) -/

/-- 5.8: the grading of the CO values 720, 1550, 1460, 1449 and 640 in turn. -/
theorem test_grading :
    (let g := Zone.reset.coT.grade
    [g 0 720, g 2 1550, g 4 1460, g 4 1449, g 3 640, g 2 400] == [2, 4, 4, 3, 1, 0]) = true := by decide

/-- 5.9: the mean of -101, -102 and -77 is -93, and of -101 and -102 is -101. -/
theorem test_airv_mean : aggregate .airv [-101, -102, -77] = -93 ∧ aggregate .airv [-101, -102] = -101 := by decide

/-- 5.9: the smoke latch sets at 121, stays at 117 and clears at 114. -/
theorem test_smoke_latch :
    (let z (latch : Bool) (v : Int) : Zone := { Zone.reset with vis := present [22] v, latch := latch }
    [(z false 118).judgedLatch, (z false 121).judgedLatch, (z true 117).judgedLatch, (z true 114).judgedLatch] ==
      [false, true, true, false]) = true := by decide

/-- 5.8: at the hold expiry the kind is ABSENT with its value shown, and the zone takes the fallback level. -/
theorem test_zone_hold_expiry :
    answers (exec (.zoneHoldExpiry 7 .co) (withZone 7 { Zone.reset with
        co := { members := [20], vstate := .held, value := 640, heldSince := some 70000, level := 1 }, level := 1 } closed))
      (fun t => (t.zone 7).co.vstate == .absent && (t.zone 7).co.value == 640 && (t.zone 7).level == 2 &&
        t.tunnelLevel == 2) = true := by decide +kernel

/-- R83, R84: a channel mapped to zone 7 makes it configured. -/
theorem test_zone_map :
    answers (exec .zoneMap (posted 5 [0, 0x36, 4, 0] { withChannel 20 co closed with mem := [(0x3600, 1), (0x3601, 20), (0x3602, 7)] }))
      (fun t => outcome t == some 0 && (t.zone 7).co.members == [20] && t.plan.configured == [7]) = true := by
  decide +kernel

/-- R83: an entry that names an unnumbered fan ends NO SUCH UNIT with failing position 0. -/
theorem test_zone_map_unit :
    answers (exec .zoneMap (posted 5 [0, 0x36, 4, 0] { closed with mem := [(0x3600, 2), (0x3601, 9), (0x3602, 7)] }))
      (fun t => outcome t == some 0x14 && t.readBytes 0x0210 4 == [0, 0, 0, 0]) = true := by decide +kernel

/-- R94: thresholds out of order end BAD PARAMETER. -/
theorem test_set_zone_order :
    answers (exec .setZone (posted 8 [7, 1, 10, 0, 9, 0, 11, 0, 12, 0, 1, 0] closed)) (fun t => outcome t == some 0x11) = true := by
  decide +kernel

/-- R94: S above 500 is brought to 500. -/
theorem test_set_zone_smoke :
    answers (exec .setZone (posted 8 ([7, 8] ++ List.replicate 30 0 ++ [0xF5, 1]) closed))
      (fun t => outcome t == some 1 && (t.zone 7).smoke == 500) = true := by decide +kernel

/-- The zones of 5.10. -/
def scanned : State :=
  let k (st : ValueState) (v : Int) : Zone :=
    { Zone.reset with co := { ZoneKind.reset with members := [1], vstate := st, value := v } }
  withZone 1 (k .present 1240) (withZone 3 (k .held 1010) (withZone 5 (k .absent 1800) (withZone 7 (k .present 960)
    (withZone 9 (k .present 1000) (withZone 15 (k .present 2200) closed)))))

/-- 5.10: eight zones visited, four matched and written. -/
theorem test_scan_zones :
    answers (exec .scanZones (posted 9 [0, 1, 0xE8, 3, 1, 2] scanned))
      (fun t => outcome t == some 0 &&
        t.readBytes 0x0210 16 == [8, 4, 4, 0, 1, 0xD8, 4, 3, 0xF2, 3, 9, 0xE8, 3, 15, 0x98, 8]) = true := by
  decide +kernel

/-! ## Fans (chapters 6 and 7) -/

/-- R114, 6.7: FAN RUN -8 on a fan RUNNING at +6 starts a reversal: RAMPING with the mark set. -/
theorem test_fan_run :
    answers (exec .fanRun (posted 0x0A [12, 0, 1, 8] (withFan 12 (jetAt { step := 6, dir := .plus }) closed)))
      (fun t => (t.fan 12).any fun r =>
        r.state == .ramping && r.reversal && r.source == .manual && r.requested == { step := 8, dir := .minus }) = true := by
  decide +kernel

/-- R114: a step of 9 ends BAD PARAMETER. -/
theorem test_fan_run_step :
    answers (exec .fanRun (posted 0x0A [12, 0, 1, 9] (withFan 12 jet closed))) (fun t => outcome t == some 0x11) = true := by
  decide +kernel

/-- R115: FAN STOP of a STOPPED fan ends OK at taking. -/
theorem test_fan_stop :
    answers (exec .fanStop (posted 0x0B [12, 0] (withFan 12 jet closed)))
      (fun t => outcome t == some 0 && t.readBytes 0x0210 4 == [1, 0, 12, 0]) = true := by decide +kernel

/-- R112: a FAN STOP that ends at its taking leaves the FAN HOME part of the fan. -/
theorem test_fan_stop_leaves_part :
    answers (exec .fanStop (posted 0x0B [12, 0] (withFan 12 { jet with part := some { slot := 9, work := .home .resetting } } closed)))
      (fun t => outcome t == some 0 && (t.fan 12).any fun r => r.part == some { slot := 9, work := .home .resetting }) =
      true := by decide +kernel

/-- R119: the requested values of an aborted fan RUNNING DOWN become step 0 in the commanded direction. -/
theorem test_abort_running_down :
    (((withFan 12 { jet with
        state := .runningDown, requested := { step := 8, dir := .minus }, part := some { slot := 9, work := .run { step := 8, dir := .minus } } }
        closed).abortPart 12).fan 12).map (·.requested) = some { step := 0, dir := .plus } := by decide

/-- R130: with a station DOWN its waiting fan is UNREACHABLE before the slot of its energizing fan is granted again. -/
theorem test_devices_down_grant :
    (let s := withFeeder 2 { allowance := 1, pendingLow := none, energizing := [12], class1 := [], class0 := [13] }
      (withFan 12 { jet with state := .energizing, slotHeld := true, commanded := { step := 1, dir := .plus } }
        (withFan 13 { jet with index := 1, state := .queued, requested := { step := 8, dir := .plus } }
          (withStations [{ stationUp with description := some { firstFan := 12, fans := [.jet, .jet], firstChannel := 0, channels := [], firstDoor := 0, doors := [] } }] closed)))
    let t := s.stationDown 1 .silence
    (t.feeder 2).energizing == [] && (t.feeder 2).class0 == [] && (t.fan 13).any (·.commanded.step == 0)) = true := by
  decide +kernel

/-- R117: FAN HOME writes source MANUAL and requested step 0, and a running fan ramps down. -/
theorem test_fan_home :
    answers (exec .fanHome (posted 0x0C [12, 0] (withFan 12 (jetAt { step := 6, dir := .minus }) closed)))
      (fun t => (t.fan 12).any fun r =>
        r.source == .manual && r.requested == { step := 0, dir := .minus } && r.state == .ramping) = true := by
  decide +kernel

/-- R112, R117: FAN HOME of a fan in FAULT starts the run-down limit of its profile, and the FAN LOCKOUT in slot 9 that it
replaces ends SUPERSEDED. -/
theorem test_fan_home_supersedes :
    answers (exec .fanHome { posted 0x0C [12, 0] (withFan 12 { jet with
          state := .fault, cause := .driveFault, part := some { slot := 9, work := .lockout } } closed) with
        active := [{ slot := 9, copy := [2, 0x0D], work := .fans [{ fan := 12, outcome := none }] false }] })
      (fun t => t.readBytes (slotAt 9) 3 == [3, 0x0D, 0x21] && t.readByte 0x0200 == 2 &&
        (t.fan 12).any fun r => r.state == .fault && r.timer == some { start := 100000, dur := 120000 }) = true := by
  decide +kernel

/-- R118: FAN LOCKOUT in IDLE ends RING NOT RUNNING. -/
theorem test_fan_lockout_idle :
    answers (exec .fanLockout (posted 0x0D [12, 0] (withFan 12 jet idle))) (fun t => outcome t == some 0x16) = true := by
  decide +kernel

/-- R118: FAN LOCKOUT of a running fan brings it down, and the order stays TAKEN. -/
theorem test_fan_lockout :
    answers (exec .fanLockout (posted 0x0D [12, 0] (withFan 12 (jetAt { step := 6, dir := .plus }) closed)))
      (fun t => t.readByte 0x0200 == 2 && (t.fan 12).any fun r => r.source == .manual && r.requested.step == 0) = true := by
  decide +kernel

/-- R115: FAN RELEASE makes a MANUAL fan AUTO. -/
theorem test_fan_release :
    answers (exec .fanRelease (posted 0x0E [12, 0] (withFan 12 { jet with source := .manual } closed)))
      (fun t => outcome t == some 0 && (t.fan 12).any fun r => r.source == .auto) = true := by decide +kernel

/-- R118: FAN UNLOCK of a LOCKED OUT fan with a last fault code leaves it in FAULT with DRIVE FAULT. -/
theorem test_fan_unlock :
    answers (exec .fanUnlock (posted 0x0F [12, 0] (withFan 12 { jet with state := .lockedOut, faultCode := 5 } closed)))
      (fun t => (t.fan 12).any fun r => r.state == .fault && r.cause == .driveFault) = true := by decide +kernel

/-- R113: an energize limit of 40 s is brought to 30. -/
theorem test_fan_profile :
    answers (exec .fanProfile (posted 0x10 [12, 0, 2, 0, 40] (withFan 12 jet closed)))
      (fun t => outcome t == some 1 && t.readBytes 0x0210 6 == [15, 4, 30, 10, 120, 0]) = true := by decide +kernel

/-- The fans 4, 5, 9 and 17 of 6.8, with the list 9, 4, 17, 5 in the transfer area. -/
def four : State :=
  { withFan 4 jet (withFan 5 jet (withFan 9 jet (withFan 17 jet closed))) with
    mem := [(0x3600, 9), (0x3601, 4), (0x3602, 17), (0x3603, 5)] }

/-- R121: the group's identifier is its lowest fan number. -/
theorem test_fan_group :
    answers (exec .fanGroup (posted 0x11 [0, 0x36, 4, 0] four))
      (fun t => outcome t == some 0 && t.readByte 0x0210 == 4 && t.groups == [4] && (t.fan 17).any (·.group == some 4)) = true := by
  decide +kernel

/-- R121: FAN UNGROUP of a number that is no identifier ends NO SUCH UNIT. -/
theorem test_fan_ungroup :
    answers (exec .fanUngroup (posted 0x12 [5] (withFan 4 { jet with group := some 4 } four)))
      (fun t => outcome t == some 0x14) = true := by decide +kernel

/-- Feeder 2 of 7.9 at 1 s: fans 20 and 22 energizing, passage fan 30 in class 1, fans 23 and 21 in class 0. -/
def feeder2 : State :=
  let start (r : Fan) : Fan := { r with state := .queued, requested := { step := 8, dir := .plus } }
  withFeeder 2 { allowance := 2, pendingLow := none, energizing := [20, 22], class1 := [30], class0 := [23, 21] }
    (withFan 30 (start { passage with feeder := 2, doorReq := true }) (withFan 23 (start jet) (withFan 21 (start jet) closed)))

/-- 7.9: allowance 1 below the count of 2 is stored as the pending allowance. -/
theorem test_set_feeder_lower :
    answers (exec .setFeeder (posted 0x13 [2, 1] feeder2))
      (fun t => outcome t == some 0 && t.feeder 2 == { feeder2.feeder 2 with pendingLow := some 1 }) = true := by
  decide +kernel

/-- 7.9: allowance 3 takes effect at once and grants to fan 30, of class 1. -/
theorem test_set_feeder_raise :
    answers (exec .setFeeder (posted 0x13 [2, 3] feeder2))
      (fun t => t.feeder 2 == { allowance := 3, pendingLow := none, energizing := [20, 22, 30], class1 := [], class0 := [23, 21] } &&
        (t.fan 30).any fun r => r.slotHeld && r.commanded.step == 1) = true := by
  decide +kernel

/-- 6.7: the step timer of the fan ramping down from +6 takes it to +5 and restarts. -/
theorem test_step_interval :
    answers (exec (.stepIntervalExpiry 12) (withFan 12 { jetAt { step := 6, dir := .plus } with
        state := .ramping, requested := { step := 8, dir := .minus }, reversal := true,
        timer := some { start := 98000#32, dur := 2000 } } closed))
      (fun t => (t.fan 12).any fun r => r.commanded == { step := 5, dir := .plus } && r.state == .ramping &&
        r.timer == some { start := 100000, dur := 2000 }) = true := by decide +kernel

/-- 7.10: the energize limit of fan 3 takes it to FAULT with START TIMEOUT, and fan 7 is granted. -/
theorem test_energize_limit :
    answers (exec (.energizeLimitExpiry 3) (withFeeder 0
        { allowance := 1, pendingLow := none, energizing := [3], class1 := [], class0 := [7, 8] }
        (withFan 3 { jetAt { step := 1, dir := .plus } with
          feeder := 0, state := .energizing, slotHeld := true, actual := { step := 0, dir := .plus },
          timer := some { start := 90000#32, dur := 10000 } }
        (withFan 7 { jet with feeder := 0, state := .queued, requested := { step := 4, dir := .plus } } closed))))
      (fun t => (t.fan 3).any (fun r => r.state == .fault && r.cause == .startTimeout && r.commanded.step == 0) &&
        (t.feeder 0).energizing == [7] && (t.feeder 0).class0 == [8]) = true := by decide +kernel

/-- R107, R109: the run-down limit ends in FAULT with RUNDOWN TIMEOUT. -/
theorem test_rundown_limit :
    answers (exec (.rundownLimitExpiry 12) (withFan 12 { jet with
        state := .runningDown, timer := some { start := 99999#32, dur := 1 } } closed))
      (fun t => (t.fan 12).any fun r => r.state == .fault && r.cause == .rundownTimeout) = true := by decide +kernel

/-- 6.7: at the dwell's expiry the mark is cleared and the fan, whose target is -3, is QUEUED and granted. -/
theorem test_reverse_dwell :
    answers (exec (.reverseDwellExpiry 12) (withFan 12 { jet with
        state := .reverseDwell, reversal := true, heard := true, standstill := true, cap := 3,
        requested := { step := 8, dir := .minus }, timer := some { start := 90000#32, dur := 10000 } } closed))
      (fun t => (t.fan 12).any fun r => r.state == .queued && !r.reversal && r.slotHeld &&
        r.commanded == { step := 1, dir := .minus }) = true := by decide +kernel

/-! ## Doors (chapter 8) -/

/-- R143: the cap list (12, 3), (13, 0) of 8.9 replaces the one held; 13 is no numbered fan: NO SUCH UNIT. -/
theorem test_set_door_fan :
    answers (exec .setDoor (posted 0x14 [3, 8, 0, 0, 0, 0, 0, 0, 0, 0x36, 4, 0]
        { withDoor 3 door (withFan 12 jet closed) with mem := [(0x3600, 12), (0x3601, 3), (0x3602, 13)] }))
      (fun t => outcome t == some 0x14) = true := by decide +kernel

/-- R143: with both fans numbered the list is stored. -/
theorem test_set_door :
    answers (exec .setDoor (posted 0x14 [3, 8, 0, 0, 0, 0, 0, 0, 0, 0x36, 4, 0]
        { withDoor 3 door (withFan 12 jet (withFan 13 jet closed)) with mem := [(0x3600, 12), (0x3601, 3), (0x3602, 13)] }))
      (fun t => outcome t == some 0 && (t.door 3).any (·.caps == [(12, 3), (13, 0)])) = true := by decide +kernel

/-- R147: DOOR SIGNAL ALARM offers the frame, and the order waits for BEACON ACK. -/
theorem test_door_signal :
    answers (exec .doorSignal (posted 0x15 [3, 2] (withDoor 3 door closed)))
      (fun t => t.readByte 0x0200 == 2 && (t.entry 1).queue.length == 1 &&
        (t.door 3).any fun d => d.source == .manual && d.manualMode == .alarm && d.beacon == .queued) = true := by
  decide +kernel

/-- 8.9: the hold expiry makes the door HELD OPEN. -/
theorem test_door_hold :
    answers (exec (.doorHoldExpiry 3) (withDoor 3 { door with
        state := .open, holdTimer := some { start := 0#32, dur := 100000 } } closed))
      (fun t => (t.door 3).any fun d => d.state == .heldOpen && d.holdTimer == none) = true := by decide +kernel

/-- 8.9: the run-on's expiry clears the smoke mark and asks fan 31 for step 0. -/
theorem test_run_on :
    answers (exec (.runOnExpiry 3) { withDoor 3 { door with
        smoke := true, runOnTimer := some { start := 70000#32, dur := 30000 } }
        (withFan 31 { passage with
          state := .running, requested := { step := 6, dir := .plus }, commanded := { step := 6, dir := .plus },
          actual := { step := 6, dir := .plus }, lastSent := some { step := 6, dir := .plus }, doorReq := true } closed) with
        passageWritten := closed.passageWritten.set 31 (some { step := 6, dir := .plus }) })
      (fun t => (t.door 3).any (fun d => !d.smoke && d.runOnTimer == none) &&
        (t.fan 31).any fun r => r.requested.step == 0 && r.state == .ramping) = true := by decide +kernel

/-! ## The planner (chapter 9) -/

/-- Three jet fans as 9.8 has them before the fire: one stopped, two running -8 with 20 and 10 run minutes. -/
def threeJets : State :=
  withZone 7 { Zone.reset with co := present [20] 0 } (withFan 9 { jetAt { step := 8, dir := .minus } with runMinutes := 20 }
    (withFan 10 { jetAt { step := 8, dir := .minus } with runMinutes := 10 } (withFan 11 jet closed)))

/-- 9.8: FIRE in zone 7, direction +, start count 2: the stopped fan and the running one of least minutes are picked. -/
theorem test_vent_plan :
    answers (exec .ventPlan (posted 0x16 [2, 7, 0, 4, 0, 0, 0, 0, 2] threeJets))
      (fun t => outcome t == some 0 && t.plan.excluded == [7, 8] && t.plan.picked == [11, 10] && t.plan.fireCount == 2 &&
        (t.fan 10).any (·.requested == { step := 8, dir := .plus }) &&
        (t.fan 9).any (·.requested == { step := 0, dir := .minus })) = true := by decide +kernel

/-- R151: a fire zone that is not configured ends BAD ZONE. -/
theorem test_vent_plan_zone :
    answers (exec .ventPlan (posted 0x16 [2, 6, 0, 0] threeJets)) (fun t => outcome t == some 0x13) = true := by
  decide +kernel

/-- R152: a stage count of 60 is brought to 48. -/
theorem test_set_stages :
    answers (exec .setStages (posted 0x17 [1, 60, 1, 2, 3, 4] closed))
      (fun t => outcome t == some 1 && t.plan.stages == [48, 1, 2, 3, 4]) = true := by decide +kernel

/-- 9.9: at the plan timer with stage count 0, fan 5, started 130 s ago, is kept and fan 2, started 430 s ago, stopped. -/
theorem test_plan_timer :
    answers (exec .planTimerExpiry (withPlan (fun p => { p with regime := .normal, planTimer := some { start := 500000#32, dur := 30000 } })
        (withFan 2 { jetAt { step := 8, dir := .plus } with plannerStart := some 100000 }
          (withFan 5 { jetAt { step := 8, dir := .plus } with plannerStart := some 400000 } { closed with clock := 530000 }))))
      (fun t => t.plan.picked == [] && t.plan.kept == 1 && (t.fan 2).any (·.requested.step == 0) &&
        (t.fan 5).any (·.requested.step == 8)) = true := by decide +kernel

/-- 9.8 at 70 s: w = 210 lies below 270 and nothing settles, so the fire count rises from 1 to 2. -/
theorem test_control_timer :
    answers (exec .controlTimerExpiry (withPlan (fun p => { p with
          regime := .fire, fireZone := 7, excluded := [7, 8], fireCount := 1, picked := [9],
          controlTimer := some { start := 90000#32, dur := 10000 } })
        (withZone 6 { Zone.reset with airv := present [21] 210 } (withFan 9 (jetAt { step := 8, dir := .plus })
          (withFan 11 jet closed)))))
      (fun t => t.plan.w == 210 && t.plan.source == .upstream && t.plan.fireCount == 2 && t.plan.picked == [9, 11]) = true := by
  decide +kernel

/-! ## Parameter transfers (chapter 11) -/

/-- 11.4: the first frame of the write carries indices 96 to 99. -/
theorem test_param_write :
    answers (exec .paramWrite (posted 0x19 [1, 0, 96, 0, 10, 0, 0, 0x36, 20, 0] closed))
      (fun t => t.readByte 0x0200 == 2 && (t.param 1).any fun x => x.position == 4 &&
        x.frame.any fun f => f.indices == [96, 97, 98, 99] && f.sent) = true := by decide +kernel

/-- 11.5: the first frame of the read carries indices 95 to 99: the head word is 95, k - 1 = 4, INCREMENT. -/
theorem test_param_read :
    answers (exec .paramRead (posted 0x18 [1, 0, 95, 0, 12, 0, 0, 0x36, 24, 0] closed))
      (fun t => (t.param 1).any fun x => x.frame.any fun f =>
        f.indices == [95, 96, 97, 98, 99] && f.payload == [95, 4]) = true := by decide +kernel

/-- 11.4: after PARAM ACK DONE, 4, the list word 20 is the new start and indices 20 to 24 follow. -/
theorem test_param_new_start :
    (let s : State := { closed with
      mem := [(0x3608, 20)]
      params := closed.params.set 0 (some { slot := 0, write := true, mode := .increment, last := 99, offset := 0x3600, count := 10, position := 4, current := 96, done := 0, frame := some { indices := [96, 97, 98, 99], payload := [], sent := true }, aborted := false }) }
    let t := s.paramReply 1 0 4 []
    (t.param 1).any fun x => x.done == 4 && x.position == 10 && x.frame.any fun f => f.indices == [20, 21, 22, 23, 24]) = true := by
  decide +kernel

/-! ## The ring (chapters 1 to 3, 12.6) -/

/-- R186: a published check value of this generator, initial value and bit order, over the nine digits (PRESUMED). -/
theorem test_check : crc16 [0x31, 0x32, 0x33, 0x34, 0x35, 0x36, 0x37, 0x38, 0x39] = 0x29B1 := by decide +kernel

/-- 1.10: the slot assignment with n = 6, the slot pointer at station 4 and the pending counts 0, 5, 1, 12, 0, 3. -/
theorem test_slot_assignment :
    (let entry (k : Nat) : RingEntry := { RingEntry.reset with replies := k }
    let s : State := { closed with
      stations := List.replicate 6 stationUp
      ring := { closed.ring with slotPtr := 4, entries := [0, 5, 1, 12, 0, 3].map entry ++ List.replicate 18 RingEntry.reset } }
    (s.assignSlots false .a).1 == [4, 6, 2, 3, 4, 6, 2, 4, 6, 2, 4, 2, 4, 2, 4, 4]) = true := by decide

/-- A FAN STEP of fan 12 in station 1's queue, and its entry once sent (1.9). -/
def stepFrame : QFrame := { kind := .fanStep, payload := [0, 0, 3], origin := .fanStep 12 false, held := 0 }
def sentStep : OutFrame :=
  { station := 1, tag := 17, frame := stepFrame, mask := maskOf 1, tries := 1, lastSent := 200, delivery := .inTrain .a }

/-- 1.9: cycle 201 is opened, and stage 3 places the queued frame with the tag at the pool's head, 17. -/
theorem test_cycle_timer :
    answers (exec .cycleTimerExpiry { closed with ring := { closed.ring with
        pool := [17, 18], entries := closed.ring.entries.modify 0 fun e => { e with queue := [stepFrame] } } })
      (fun t => t.ring.cycle == 201 && (t.entry 1).queue == [] && t.ring.pool == [18] &&
        t.outFrame 17 == some { sentStep with lastSent := 201 } && (t.ring.trainA.map (·.frames)) == some [.queued 17]) = true := by
  decide +kernel

/-- R2, R6: a train that has not come back is counted lost, and its stations miss the cycle. -/
theorem test_cycle_lost :
    answers (exec .cycleTimerExpiry { closed with ring := { closed.ring with trainA := some { emptyTrain with accepted := false } } })
      (fun t => t.ring.lost == 1 && t.fold.runA == 1 && t.stations.map (·.missRun) == [1, 1]) = true := by
  decide +kernel

/-- R6: a train of an earlier cycle at B-receive is late. -/
theorem test_train_late :
    answers (exec (.trainArrival .b (withCheck (le16 199 ++ List.replicate 17 0))) closed)
      (fun t => t.ring.late == 1) = true := by decide +kernel

/-- The state after train 201 with the FAN STEP has been sent, its mask being cleared by the station (1.9). -/
def inFlight : State :=
  { closed with ring := { closed.ring with
    cycle := 201, pool := [18], outstanding := [{ sentStep with lastSent := 201 }]
    trainA := some { frames := [.queued 17], assign := List.replicate 16 0, accepted := false } } }

/-- 1.9: train 201 returns with the mask clear: AWAITING REPLY, take cycle 201. -/
theorem test_train_returns :
    answers (exec (.trainArrival .b ((withCheck (le16 201 ++ List.replicate 17 0)) ++
        frameBytes 0 .fanStep true 17 [0, 0, 3])) inFlight)
      (fun t => (t.outFrame 17).map (·.delivery) == some (.awaiting 201) && (t.ring.trainA.map (·.accepted)) == some true) = true := by
  decide +kernel

/-- The bytes of a train without command frames, header of this cycle and side A, that ends after its header. -/
def headed (n : Nat) : List Byte := withCheck (le16 n ++ List.replicate 17 0)

/-- No train of this cycle has come back. -/
def sent : SentTrain := { emptyTrain with accepted := false }
def awaiting (s : State) : State := { s with ring := { s.ring with trainA := some sent } }

/-- An ENROL in slot 63 that has asked for its addresses. -/
def enrolSlot : State :=
  { enrolling with
    enrol := some { slot := 63, failures := 0, addressed := false, probe := .none, excess := false, overCapacity := false }
    active := [{ slot := 63, copy := List.replicate 64 1, work := .enrol }] }

/-- R48: in ENROLLING a turned train of an earlier cycle ends the ENROL and is counted late. -/
theorem test_turned_in_enrolling :
    (let t := (awaiting enrolSlot).arrive .a (headed 199)
    t.ring.state == .idle && t.enrol == none && t.ring.late == 1) = true := by decide +kernel

/-- R12, R27: a TAKE ADDRESS that comes back with a bit set outside its empty mask is unreadable: the attempt fails. -/
theorem test_wide_mask :
    ((enrolSlot.placeBack .a (.wide (.takeAddress 1 false)) (some (2, [3]))).enrol.map (·.failures)) = some 1 := by decide

/-- R48: the loss of B-receive's signal in CLOSED folds the ring with cause SIGNAL LOSS. -/
theorem test_signal_loss :
    answers (exec (.signalDetectChange .b false) closed)
      (fun t => t.ring.state == .folded && t.fold.cause == .signalLoss && t.fold.cycle == 200 && t.fold.count == 1) = true := by
  decide +kernel

/-- 1.9: with take cycle 201 the close of cycle 206 ends the frame. -/
theorem test_reply_limit :
    answers (exec (.replyLimitExpiry 17) { closed with ring := { closed.ring with
        cycle := 206, pool := [], outstanding := [{ sentStep with delivery := .awaiting 201 }] } })
      (fun t => t.outFrame 17 == none && t.ring.resting == [(17, 206)]) = true := by decide +kernel

/-- R1: a tag returned in cycle 192 rests 8 cycles and is free at the opening of cycle 201. -/
theorem test_tag_rest :
    answers (exec (.tagRestEnd 17) { closed with ring := { closed.ring with pool := [3], resting := [(17, 192)] } })
      (fun t => t.ring.pool == [3, 17] && t.ring.resting == [] && t.ring.cycle == 201) = true := by decide +kernel

/-- R1: a tag returned in cycle 193 still rests. -/
theorem test_tag_rest_early :
    answers (exec (.tagRestEnd 17) { closed with ring := { closed.ring with pool := [3], resting := [(17, 193)] } })
      (fun t => t.ring.pool == [3]) = true := by decide +kernel

/-- R10: a frame held at 19 openings is ended at the 20th. -/
theorem test_held_frame :
    answers (exec (.heldFrameExpiry 1) { closed with ring := { closed.ring with
        entries := closed.ring.entries.modify 0 fun e => { e with queue := [{ stepFrame with held := 19 }], intake := .closed } } })
      (fun t => (t.entry 1).queue == []) = true := by decide +kernel

/-- R28: a page first requested in cycle 180 times out at the close of cycle 200. -/
theorem test_page_timeout :
    answers (exec (.pageTimeout 2) (withStations [stationUp, { Station.created 180 with link := .paging }] closed))
      (fun t => (t.station 2).any fun r => r.link == .down && r.cause == .pageTimeout && r.linkDowns == 1) = true := by
  decide +kernel

/-- R37: a station PENDING since cycle 160 goes DOWN with cause SILENCE at the close of cycle 200. -/
theorem test_pending_timeout :
    answers (exec (.pendingTimeout 2) (withStations [stationUp, { stationUp with link := .pending, pendingSince := some 160 }] closed))
      (fun t => (t.station 2).any fun r => r.link == .down && r.cause == .silence) = true := by decide +kernel

/-- FOLDED with both trains back, and every station heard. -/
def foldedQuiet : State :=
  { folded with
    ring := { folded.ring with kind := .two, trainB := some emptyTrain, heard := [1, 2] }
    fold := { Fold.reset with healStart := some 98000 } }

/-- R56: a heal condition held for 2000 ms makes the attempt due. -/
theorem test_heal_time :
    answers (exec .healTimeElapsed foldedQuiet) (fun t => t.fold.recloseDue && t.ring.state == .folded) = true := by
  decide +kernel

/-- R58: the close of cycle r + 2 without success fails the attempt. -/
theorem test_reclose_expiry :
    answers (exec .recloseAttemptExpiry { foldedQuiet with
        ring := { foldedQuiet.ring with state := .reclosing, kind := .recloseOne, trainB := none }
        fold := { Fold.reset with reclosing := some 198 } })
      (fun t => t.ring.state == .folded && t.fold.failures == 1 && t.fold.reclosing == none) = true := by decide +kernel

/-! ## Time -/

/-- R110: the 60th second is a minute. -/
theorem test_run_seconds :
    answers (exec .runSecondsTick (withFan 12 { jetAt { step := 1, dir := .plus } with runSeconds := 59, runMinutes := 7 }
        { closed with secondsOwed := 1 }))
      (fun t => (t.fan 12).any fun r => r.runSeconds == 0 && r.runMinutes == 8) = true := by decide +kernel

/-- R165: the clock is shown little-endian at offset 4, and wraps. -/
theorem test_clock_tick :
    answers (exec .controllerClockTick { idle with clock := 0xFFFFFFFF }) (fun t => t.clock == 0 && t.readBytes 4 4 == [0, 0, 0, 0]) = true := by
  decide

/-! ## Witnesses: states and operands that meet the hypotheses of the statements -/

/-- What `State.orderReady` asks for, as a test. -/
def isReady (s : State) (slot code : Nat) : Bool :=
  s.intake.head? == some slot && decide (slot < 64) && decide (s.slotStatus slot = slotPosted) &&
    decide (s.activeOrder slot = none) && Memory.wf s.mem && decide ((s.readByte (slotAt slot + 1)).toNat = code)

theorem orderReady_of_isReady {s : State} {slot code : Nat} (h : isReady s slot code = true) : s.orderReady slot code := by
  simp only [isReady, Bool.and_eq_true, decide_eq_true_eq, beq_iff_eq] at h
  obtain ⟨⟨⟨⟨⟨h1, h2⟩, h3⟩, h4⟩, h5⟩, h6⟩ := h
  exact ⟨⟨h1, h2, h3, h4, h5⟩, h6⟩

/-- What `State.ordersOwned` asks for, as a test. -/
def isOwned (s : State) : Bool :=
  let has (k : Nat) (w : Work) : Bool := s.active.any fun o => o.slot == k && decide (o.work = w)
  decide (s.active.map (·.slot)).Nodup && (s.enrol.all fun e => has e.slot .enrol) &&
    (s.channels.zipIdx.all fun x => x.1.all fun r => r.capture.all fun k => has k.slot (.capture x.2)) &&
    (s.doors.zipIdx.all fun x => x.1.all fun r => r.signal.all fun k => has k (.signal x.2)) &&
    (s.params.zipIdx.all fun x => x.1.all fun r => has r.slot (.param (x.2 + 1))) &&
    (s.fans.zipIdx.all fun x => x.1.all fun r => r.part.all fun p => s.active.any fun o => o.slot == p.slot &&
      match o.work with
      | .fans parts _ => decide (FanPart.mk x.2 none ∈ parts)
      | .quick => false | .enrol => false | .capture _ => false | .signal _ => false | .param _ => false)

theorem mem_zipIdx_of_getD {α : Type} {l : List (Option α)} {i : Nat} {r : α} (h : l.getD i none = some r) :
    (some r, i) ∈ l.zipIdx := by
  rw [List.mk_mem_zipIdx_iff_getElem?]
  simp only [List.getD_eq_getElem?_getD] at h
  cases hi : l[i]? with
  | none => simp [hi] at h
  | some x => simp [hi] at h; simp [h]

theorem ordersOwned_of_isOwned {s : State} (h : isOwned s = true) : s.ordersOwned := by
  simp only [isOwned, Bool.and_eq_true, decide_eq_true_eq, List.all_eq_true, List.any_eq_true, beq_iff_eq,
    Option.all_eq_true] at h
  obtain ⟨⟨⟨⟨⟨h1, h2⟩, h3⟩, h4⟩, h5⟩, h6⟩ := h
  refine ⟨h1, fun e he => ?_, fun c r k hc hk => ?_, fun d r k hd hk => ?_, fun st x hx => ?_, fun f r p hf hp => ?_⟩
  · exact h2 e he
  · exact h3 _ (mem_zipIdx_of_getD hc) r rfl k hk
  · exact h4 _ (mem_zipIdx_of_getD hd) r rfl k hk
  · by_cases h0 : st = 0
    · simp [State.param, h0] at hx
    · rw [State.param, if_neg h0] at hx
      have := h5 _ (mem_zipIdx_of_getD hx) x rfl
      simpa [Nat.sub_add_cancel (Nat.one_le_iff_ne_zero.2 h0)] using this
  · obtain ⟨o, ho, hs, hw⟩ := h6 _ (mem_zipIdx_of_getD hf) r rfl p hp
    refine ⟨o, ho, hs, ?_⟩
    cases hk : o.work with
    | fans parts clamped => exact ⟨parts, clamped, rfl, by simpa [hk] using hw⟩
    | _ => simp [hk] at hw

theorem ordersSound_of_isOwned {s : State} (h : isOwned s = true) (hn : s.numbersSound) (hw : Memory.wf s.mem = true) :
    s.ordersSound := ⟨hn, ordersOwned_of_isOwned h, hw⟩

/-- Both clauses: a command waits, and none waits. -/
theorem witness_StepRunsFrontCommand :
    ({ idle with pending := [.idWrite 0] } : State).pending = .idWrite 0 :: [] ∧ idle.pending = [] := ⟨rfl, rfl⟩

theorem witness_ResetsClearEveryBlock : Memory.wf (posted 2 [] closed).mem = true ∧ (0x80#32).getLsbD 7 = true := by
  decide

/-- A host store into the transfer area while formatting leaves every place in question to the formatting, the reserved
byte and the read index too. -/
theorem witness_ResetDoneFormatsWindow :
    (let s := { State.reset with mem := [(0x3600, 1)], formatStores := [] }
    s.formatting = some .powerOn ∧ Memory.wf s.mem = true ∧ (0 ∉ keptStores s.formatStores) ∧
      (∀ a ∈ [1, 3, 0x0A, 0x0B, 0x0E, 0x017F, 0x0200, 0x11FF], a ∉ keptStores s.formatStores) ∧
      Table.doors.count = 32) := by decide

/-- With READY set and clear; a store at the port's last byte, and one at the first address beyond it. -/
theorem witness_RegistersReadAndWrite :
    (0x7F#32).getLsbD 7 = false ∧ idle.formatting = none ∧ State.reset.formatting.isSome = true ∧
      storesInWindow [(0x7FFF, 1)] = true ∧ Memory.wf idle.mem = true ∧ storesInWindow [(0x8000, 0)] = false := by decide

/-- While formatting; with READY the numbers 64, an unposted 63, the queued 0 and the POSTED 5. -/
theorem witness_IntakeQueueChecksPosts :
    (let s := { posted 2 [] idle with mem := [(0x0200, 1), (0x0340, 1)] }
    storesInWindow [] = true ∧ Memory.wf s.mem = true ∧ State.reset.formatting.isSome = true ∧ s.formatting = none ∧
      lastStored [] (0x0200 + 64 * 63) (s.readByte (0x0200 + 64 * 63)) ≠ 1 ∧
      lastStored [] 0x0200 (s.readByte 0x0200) = 1 ∧ 0 ∈ s.orderNumbers ∧
      lastStored [] 0x0340 (s.readByte 0x0340) = 1 ∧ 5 ∉ s.orderNumbers) ∧
    (posted 2 [] idle).numbersSound := by
  refine ⟨by decide, ?_⟩
  unfold State.numbersSound
  decide

/-- A withdrawn head, and POSTED heads with the codes 0 and 0x1B. -/
theorem witness_IntakeQueueChecksPosts_dispatcher :
    (let s := { idle with intake := [63, 2] }
    s.intake = 63 :: [2] ∧ s.slotStatus 63 ≠ 1 ∧ Memory.wf s.mem = true) ∧
    (posted 0 [] idle).orderReady 0 0 ∧ (posted 0x1B [] idle).orderReady 0 0x1B :=
  ⟨by decide, orderReady_of_isReady (by decide), orderReady_of_isReady (by decide)⟩

/-- An order of the active set in slot 63. -/
def taken63 : State := { idle with active := [{ slot := 63, copy := List.replicate 64 9, work := .quick }] }

theorem witness_CompletionWritesSlot :
    Memory.wf taken63.mem = true ∧
      taken63.activeOrder 63 = some { slot := 63, copy := List.replicate 64 9, work := .quick } ∧
      (List.replicate 48 1 : List Byte).length ≤ 48 := by decide

/-- The journal at its last record: full, room for one with and without a gap, and room for two. -/
theorem witness_JournalRecordsOrCounts :
    (let j (rd gap : Nat) : State := { idle with mem := if rd = 0 then [] else [(0x0A, byte rd)], jWrite := 255, jGap := gap }
    Memory.wf (j 7 0).mem = true ∧ (j 7 0).jWrite < 256 ∧ (j 0 0).journalRead = (255 + 1) % 256 ∧
      (j 7 0).journalRead ≠ (255 + 1) % 256 ∧ (j 7 0).jGap = 0 ∧
      (j 1 3).journalRead = (255 + 2) % 256 ∧ (j 1 3).jGap ≠ 0 ∧
      (j 7 3).journalRead ≠ (255 + 1) % 256 ∧ (j 7 3).journalRead ≠ (255 + 2) % 256) := by decide

/-- Two events of the fan sequencer stand recorded, after the first of which fan 46 has a record and fan 47 none, and the
table of doors is rewritten whole; at the end fan 47 has one: both entries have changed, by two updates, and fan 45's has
not. A list of two channels, in each of whose entries a zone changes, raises the counters of the zone table by 2. -/
theorem witness_ImageUpdateShowsEntries :
    (let mid := withFan 46 jet idle
    let s := withFan 47 jet ((mid.handled .fans).handledAs .whole .doors)
    s.events = idle.events ++ s.events ∧ s.events.length = 2 ∧ (Writer.fans, Force.none) ∈ s.events.map (fun e => (e.writer, e.force)) ∧
      Memory.wf s.mem = true ∧ s.imageCounts.length = 8 ∧ s.formatting = none ∧
      s.entryAt idle.shown .fans 46 ≠ s.entryAt mid.shown .fans 46 ∧
      s.entryAt mid.shown .fans 47 ≠ s.imageEntry .fans 47 ∧ s.entryAt idle.shown .fans 45 = s.imageEntry .fans 45 ∧
      (State.refresh idle s).imageCounts = [0, 0, 0, 0, 0, 0, 2, 1]) ∧
    answers (exec .zoneMap (posted 5 [0, 0x36, 8, 0] { withChannel 21 co (withChannel 20 co closed) with
        mem := [(0x3600, 1), (0x3601, 20), (0x3602, 7), (0x3604, 1), (0x3605, 21), (0x3606, 7)] }))
      (fun t => (t.zone 7).co.members == [20, 21] && t.imageCounts.getD 5 0 == 2) = true := by decide +kernel

/-- A SET RING whose step changes the ring entry; a channel, a zone and measurements at the ends of their fields; and a
record of every table. -/
theorem witness_ImageUpdateShowsEntries_commands :
    (let s := posted 2 [12, 0, 100, 0] closed;
      s.formatting = none ∧ Memory.wf s.mem = true ∧ s.imageCounts.length = 8 ∧
        answers (exec .setRing s) (fun t =>
          t.formatting == none && t.clock == s.clock && s.imageEntry .ring 0 != t.imageEntry .ring 0) = true) ∧
    (∀ v ∈ [-0x8000, (0x7FFF : Int)],
      let s := withPlan (fun p => { p with measured := v, w := v }) (withChannel 95 { co with value := v }
        (withZone 15 { Zone.reset with vis := present [95, 1, 2, 3] v } closed));
      -0x8000 ≤ s.plan.measured ∧ s.plan.w < 0x8000 ∧ s.channel 95 = some { co with value := v } ∧
        (s.zone 15).vis.members.length ≤ 4 ∧ (s.zone 15).vis.value = v) ∧
    (closed.station 1 = some stationUp ∧ closed.station 3 = none ∧ closed.channel 95 = none ∧
      (withFan 47 jet closed).fan 47 = some jet ∧ (withDoor 31 door closed).door 31 = some door) := by decide +kernel

theorem witness_SetRingStoresSettings : (posted 2 [51, 0, 0, 0] closed).orderReady 0 2 :=
  orderReady_of_isReady (by decide)

/-- An address without a record, and the last enrolled one. -/
theorem witness_SenseStationReturnsSnapshot :
    (posted 3 [3] closed).orderReady 0 3 ∧ (posted 3 [3] closed).station 3 = none ∧
    (posted 3 [2] closed).orderReady 0 3 ∧ (posted 3 [2] closed).station 2 = some stationUp :=
  ⟨orderReady_of_isReady (by decide), rfl, orderReady_of_isReady (by decide), rfl⟩

/-- All stations of an empty table, a named station, and an address without a record. -/
theorem witness_ClearCountsZeroesCounts :
    (posted 4 [0] idle).orderReady 0 4 ∧ u8 ((posted 4 [0] idle).orderBody 0) 0 = 0 ∧
    (posted 4 [2] closed).orderReady 0 4 ∧ ((posted 4 [2] closed).station 2).isSome = true ∧
    (posted 4 [25] closed).orderReady 0 4 ∧ (posted 4 [25] closed).station 25 = none :=
  ⟨orderReady_of_isReady (by decide), by decide, orderReady_of_isReady (by decide), rfl,
    orderReady_of_isReady (by decide), rfl⟩

/-- A transfer of station 1 of one word from index 99, its frame sent or not. -/
def transfer (sent : Bool) : Transfer :=
  { slot := 63, write := false, mode := .increment, last := 99, offset := 0x3600, count := 1, position := 0, current := 99,
    done := 0, frame := some { indices := [99], payload := [99, 0], sent := sent }, aborted := false }

/-- From CLOSED, from IDLE with and without signal, and refused in ENROLLING and FOLDED. -/
theorem witness_EnrolStartsAfreshOrIsRefused :
    ((posted 1 [] closed).orderReady 0 1 ∧ (posted 1 [] closed).ring.state = .closed ∧ (posted 1 [] closed).numbersSound ∧
      (posted 1 [] closed).ordersOwned) ∧
    ((posted 1 [] idle).orderReady 0 1 ∧ (posted 1 [] idle).ring.state = .idle ∧ (posted 1 [] idle).numbersSound ∧
      (posted 1 [] idle).ordersOwned ∧ (posted 1 [] idle).sigB = false) ∧
    ({ posted 1 [] idle with sigB := true }.orderReady 0 1 ∧ { posted 1 [] idle with sigB := true }.numbersSound ∧
      { posted 1 [] idle with sigB := true }.ordersOwned) ∧
    ((posted 1 [] enrolling).orderReady 0 1 ∧ (posted 1 [] enrolling).ring.state = .enrolling) ∧
    ((posted 1 [] folded).orderReady 0 1 ∧ (posted 1 [] folded).ring.state = .folded) := by
  refine ⟨⟨orderReady_of_isReady (by decide), rfl, ?_, ordersOwned_of_isOwned (by decide)⟩,
    ⟨orderReady_of_isReady (by decide), rfl, ?_, ordersOwned_of_isOwned (by decide), rfl⟩,
    ⟨orderReady_of_isReady (by decide), ?_, ordersOwned_of_isOwned (by decide)⟩,
    ⟨orderReady_of_isReady (by decide), rfl⟩, orderReady_of_isReady (by decide), rfl⟩ <;>
  · unfold State.numbersSound
    decide

/-- Station 1 with a fan, a channel and a door, a long order in hand at each and a transfer: the fan holds a start slot, the
door was CLOSED, lists the fan and has it as its passage fan, and its beacon frame waits. -/
def described : Description :=
  { firstFan := 47, fans := [.passage], firstChannel := 95, channels := [.co], firstDoor := 31, doors := [.hinged] }
def heldFan : Fan :=
  { passage with
    state := .queued, requested := { step := 6, dir := .plus }, commanded := { step := 1, dir := .plus }, slotHeld := true,
    part := some { slot := 60, work := .run { step := 6, dir := .plus } } }
def caughtChannel : Channel :=
  { co with quality := .good, capture := some { slot := 61, count := 7, sum := 5600, lowest := 800, highest := 800 } }
def signalDoor : Door :=
  { door with passage := some 47, caps := [(47, 0)], confirmed := some .guide, beacon := .queued, signal := some 62 }
def handed : List ActiveOrder :=
  [{ slot := 60, copy := List.replicate 64 10, work := .fans [{ fan := 47, outcome := none }] false },
   { slot := 61, copy := List.replicate 64 7, work := .capture 95 },
   { slot := 62, copy := List.replicate 64 21, work := .signal 31 },
   { slot := 63, copy := List.replicate 64 24, work := .param 1 }]
def manned (r : Station) (s : State) : State :=
  withFan 47 heldFan (withChannel 95 caughtChannel (withDoor 31 signalDoor
    (withFeeder 1 { Feeder.reset with energizing := [47], class0 := [46] }
      { withStations [r] s with active := handed, params := s.params.set 0 (some { transfer true with count := 2 }) })))

theorem manned_sound :
    ∀ s ∈ [manned stationUp (posted 1 [] closed), manned { stationUp with description := some described } closed],
      s.ordersSound := by
  intro s hs
  simp only [List.mem_cons, List.not_mem_nil, or_false] at hs
  rcases hs with rfl | rfl <;>
  · refine ordersSound_of_isOwned (by decide +kernel) ?_ (by decide)
    unfold State.numbersSound
    decide

/-- An ENROL with each long order in hand. -/
theorem witness_EnrolStartsAfreshOrIsRefused_orders :
    (let s := manned stationUp (posted 1 [] closed)
    s.orderReady 0 1 ∧ s.ring.state = .closed ∧ s.ordersSound ∧ (∀ o ∈ handed, o ∈ s.active) ∧
      s.door 31 = some signalDoor ∧ s.param 1 = some { transfer true with count := 2 } ∧ (transfer true).slot = 63) := by
  exact ⟨orderReady_of_isReady (by decide), rfl, manned_sound _ (by simp), fun o ho => ho, rfl, rfl, rfl⟩

/-- The devices of a station that goes DOWN at a page's or a reply's time, by a heartbeat and by a page: a CLOSED door that
calls for its passage fan, a channel with a capture, a fan with a start slot and one that waits for it. -/
theorem witness_StationGoesDown_devices :
    (∀ r ∈ [{ stationUp with link := .silent, missRun := 19, description := some described },
        { stationUp with link := .paging, reEnrol := true, description := some described },
        { stationUp with link := .pending, pendingSince := some 160, description := some described }],
      (manned r closed).station 1 = some r ∧ (manned r closed).enrol = none ∧ r.description = some described) ∧
    (let s := manned { stationUp with description := some described } closed
    s.ordersSound ∧ s.param 1 = some { transfer true with count := 2 } ∧ 0 < described.fans.length ∧
      0 < described.channels.length ∧ 0 < described.doors.length ∧ s.fan 47 = some heldFan ∧
      s.channel 95 = some caughtChannel ∧ s.door 31 = some signalDoor ∧ heldFan.state = .queued ∧
      (s.feeder 1).energizing = [47] ∧ s.activeOrder 60 = handed[0]? ∧ s.activeOrder 61 = handed[1]? ∧
      s.activeOrder 62 = handed[2]? ∧ (47, 0) ∈ signalDoor.caps ∧ signalDoor.passage = some 47 ∧ 47 < s.passageWritten.length) ∧
    (let s := withFan 46 { heldFan with slotHeld := false, part := none } (manned stationUp closed)
    (s.fan 46).map (·.slotHeld) = some false ∧ 46 ∈ (s.feeder 1).class0) := by
  exact ⟨by decide, ⟨manned_sound _ (by simp), by decide⟩, by decide⟩

/-- An ABORT in slot 0 that names slot 63, with a capture of channel 20 or a transfer of station 1 in hand there. -/
def capturing (named : Byte) : State :=
  { withChannel 20 { co with capture := some { slot := 63, count := 0, sum := 0, lowest := 4095, highest := 0 } }
      (posted 0x1A [named] closed) with
    active := [{ slot := 63, copy := List.replicate 64 7, work := .capture 20 }] }
def transferring (sent : Bool) : State :=
  { posted 0x1A [63] closed with
    active := [{ slot := 63, copy := List.replicate 64 0x18, work := .param 1 }]
    params := closed.params.set 0 (some (transfer sent)) }

/-- An ABORT of the ENROL, and of a FAN RUN of the fan 47 alone. -/
def abortingEnrol : State := { enrolSlot with intake := [0], mem := (posted 0x1A [63] idle).mem }
def runningFan : Fan := { jetAt { step := 3, dir := .plus } with part := some { slot := 63, work := .run { step := 8, dir := .minus } } }
def abortingFan : State :=
  { withFan 47 runningFan (posted 0x1A [63] closed) with
    active := [{ slot := 63, copy := List.replicate 64 7, work := .fans [{ fan := 47, outcome := none }] true }] }

/-- The number 64, a slot without a long order, a capture, a transfer with and without a frame in flight, an ENROL, and a
fan order of one fan. -/
theorem witness_AbortEndsNamedOrder :
    ((capturing 64).orderReady 0 0x1A ∧ (capturing 64).numbersSound ∧ 64 ≤ u8 ((capturing 64).orderBody 0) 0) ∧
    ((capturing 62).orderReady 0 0x1A ∧ (capturing 62).activeOrder 62 = none) ∧
    ((capturing 63).orderReady 0 0x1A ∧
      (capturing 63).activeOrder 63 = some { slot := 63, copy := List.replicate 64 7, work := .capture 20 } ∧
      ((capturing 63).channel 20).bind (·.capture) = some { slot := 63, count := 0, sum := 0, lowest := 4095, highest := 0 }) ∧
    (∀ sent, (transferring sent).orderReady 0 0x1A ∧ (transferring sent).numbersSound ∧
      (transferring sent).activeOrder 63 = some { slot := 63, copy := List.replicate 64 0x18, work := .param 1 } ∧
      (transferring sent).param 1 = some (transfer sent) ∧ (transfer sent).frame.any (·.sent) = sent) ∧
    (abortingEnrol.orderReady 0 0x1A ∧ abortingEnrol.numbersSound ∧ u8 (abortingEnrol.orderBody 0) 0 = 63 ∧
      abortingEnrol.activeOrder 63 = some { slot := 63, copy := List.replicate 64 1, work := .enrol } ∧
      (abortingEnrol.enrol.map (·.slot)) = some 63) ∧
    (abortingFan.orderReady 0 0x1A ∧ abortingFan.numbersSound ∧ abortingFan.fan 47 = some runningFan ∧
      (abortingFan.activeOrder 63).isSome = true) := by
  refine ⟨⟨orderReady_of_isReady (by decide), ?_, by decide⟩, ⟨orderReady_of_isReady (by decide), rfl⟩,
    ⟨orderReady_of_isReady (by decide), rfl, rfl⟩, fun sent => ⟨orderReady_of_isReady ?_, ?_, rfl, ?_, rfl⟩,
    ⟨orderReady_of_isReady (by decide), ?_, by decide, rfl, rfl⟩, orderReady_of_isReady (by decide), ?_, rfl, rfl⟩
  · unfold State.numbersSound
    decide
  · cases sent <;> decide
  · cases sent <;> (unfold State.numbersSound; decide)
  · cases sent <;> rfl
  · unfold State.numbersSound
    decide
  · unfold State.numbersSound
    decide

/-- A fan order of three fans, one part ended already, the others open: one RUNNING, one waiting for a slot; and a signal
order of the last door. -/
def groupParts : List FanPart :=
  [{ fan := 45, outcome := some .lockedOut }, { fan := 46, outcome := none }, { fan := 47, outcome := none }]
def abortingGroup : State :=
  let part : Option ActivePart := some { slot := 63, work := .run { step := 8, dir := .minus } }
  withFan 45 jet (withFan 46 { jet with state := .queued, requested := { step := 8, dir := .plus }, part := part }
    (withFan 47 runningFan
      { posted 0x1A [63] closed with
        active := [{ slot := 63, copy := List.replicate 64 7, work := .fans groupParts false }] }))
def abortingSignal : State :=
  { withDoor 31 { door with signal := some 63, beacon := .queued } (posted 0x1A [63] closed) with
    active := [{ slot := 63, copy := List.replicate 64 21, work := .signal 31 }] }
theorem witness_AbortEndsNamedOrder_group :
    (abortingGroup.orderReady 0 0x1A ∧ abortingGroup.numbersSound ∧
      (abortingGroup.activeOrder 63).map (·.work) = some (.fans groupParts false) ∧ (groupParts.map (·.fan)).Nodup ∧
        (∃ p ∈ groupParts, p.outcome = none) ∧
        (∀ p ∈ groupParts, p.outcome = none → ∃ r q, abortingGroup.fan p.fan = some r ∧ r.part = some q ∧ q.slot = 63 ∧
          abortingGroup.reachable r.station = true)) ∧
    (abortingSignal.orderReady 0 0x1A ∧ abortingSignal.numbersSound ∧
      (abortingSignal.activeOrder 63).map (·.work) = some (.signal 31) ∧
      (abortingSignal.door 31).map (·.signal) = some (some 63)) := by
  refine ⟨⟨orderReady_of_isReady (by decide), ?_, rfl, by decide, by decide, ?_⟩,
    orderReady_of_isReady (by decide), ?_, rfl, rfl⟩
  · unfold State.numbersSound
    decide
  · intro p hp h
    simp only [groupParts, List.mem_cons, List.not_mem_nil, or_false] at hp
    rcases hp with rfl | rfl | rfl
    · simp at h
    · exact ⟨_, _, rfl, rfl, rfl, by decide⟩
    · exact ⟨_, _, rfl, rfl, rfl, by decide⟩
  · unfold State.numbersSound
    decide

/-- Bad regions, a length that is no multiple of 4, and a list that puts fan 12 into zone 7 and then, last, an excluded
one. -/
def mapping (body : List Byte) : State :=
  withPlan (fun p => { p with regime := .fire, excluded := [15] })
    { withFan 12 jet (posted 5 body closed) with
      mem := Memory.writeBytes (posted 5 body closed).mem 0x7FF8 [2, 12, 15, 0, 2, 12, 0xFF, 0] }
theorem witness_ZoneMapAppliesEntries :
    (∀ body ∈ ([[0xFF, 0x35, 4, 0], [0xFC, 0x7F, 8, 0], [0, 0x36, 3, 0], [0xF8, 0x7F, 8, 0]] : List (List Byte)),
      (mapping body).orderReady 0 5 ∧ (mapping body).numbersSound) ∧
    (let s := mapping [0xF8, 0x7F, 8, 0]
    let entry (i j : Nat) : Nat := (s.readByte (0x7FF8 + 4 * i + j)).toNat
    (∀ i < 2, entry i 0 = 2 ∧ (s.fan (entry i 1)).isSome = true ∧ (entry i 2 < 16 ∨ entry i 2 = 0xFF)) ∧
      s.fan 12 = some jet ∧ (∀ j < 2, 1 < j → entry j 1 ≠ 12) ∧ (∀ j < 0, entry j 1 ≠ 12) ∧
      s.plan.regime = .fire ∧ jet.source = .auto ∧ entry 0 2 ∈ s.plan.excluded) := by
  refine ⟨fun body hb => ?_, by decide⟩
  simp only [List.mem_cons, List.not_mem_nil, or_false] at hb
  rcases hb with rfl | rfl | rfl | rfl <;>
  · refine ⟨orderReady_of_isReady (by decide), ?_⟩
    unfold State.numbersSound
    decide

/-- One entry for channel 95: a zone to join, the present zone, none, and a zone whose CO kind is full. -/
def moving (held : Option Nat) (members : List Nat) (zone : Byte) : State :=
  withZone 15 { Zone.reset with co := { ZoneKind.reset with members := members } }
    (withChannel 95 { co with zone := held }
      { posted 5 [0xFC, 0x7F, 4, 0] closed with
        mem := Memory.writeBytes (posted 5 [0xFC, 0x7F, 4, 0] closed).mem 0x7FFC [1, 95, zone, 0] })
theorem witness_ZoneMapAppliesEntries_channel :
    ∀ s ∈ [moving none [] 15, moving (some 15) [95] 15, moving (some 15) [95] 0xFF, moving none [1, 2, 3, 4] 15],
      s.orderReady 0 5 ∧ s.numbersSound ∧ s.shaped ∧ u16 (s.orderBody 0) 0 = 0x7FFC ∧ u16 (s.orderBody 0) 2 = 4 ∧
      (s.readByte 0x7FFC).toNat = 1 ∧ (s.readByte 0x7FFD).toNat = 95 ∧ (s.channel 95).isSome = true := by
  intro s hs
  simp only [List.mem_cons, List.not_mem_nil, or_false] at hs
  rcases hs with rfl | rfl | rfl | rfl <;>
  · refine ⟨orderReady_of_isReady (by decide), ?_, ?_, by decide, by decide, by decide, by decide, rfl⟩
    · unfold State.numbersSound
      decide
    · unfold State.shaped
      decide

/-- A mixed list whose last entry is for a unit without a number, and one that is carried out to its end. -/
def mixed (length last : Byte) : State :=
  let s := withDoor 31 { door with state := .open, passage := some 31 } (withFan 31 passage (withFan 12 jet
    (withChannel 95 co (withZone 15 { Zone.reset with latch := true }
      (withPlan (fun p => { p with regime := .fire, excluded := [15] }) (posted 5 [0xF0, 0x7F, length, 0] closed))))))
  { s with mem := Memory.writeBytes s.mem 0x7FF0 [1, 95, 15, 0, 2, 12, 15, 0, 3, 31, 15, 0, 1, last, 0xFF, 0] }
theorem witness_ZoneMapAppliesEntries_mixed :
    ∀ s ∈ [mixed 16 94, mixed 16 95, mixed 0 94],
      s.orderReady 0 5 ∧ s.numbersSound ∧ s.ordersOwned ∧ u16 (s.orderBody 0) 0 = 0x7FF0 ∧
      u16 (s.orderBody 0) 2 = 4 * (u16 (s.orderBody 0) 2 / 4) ∧ 0x7FF0 + u16 (s.orderBody 0) 2 ≤ 0x8000 := by
  intro s hs
  simp only [List.mem_cons, List.not_mem_nil, or_false] at hs
  rcases hs with rfl | rfl | rfl <;>
  · refine ⟨orderReady_of_isReady (by decide +kernel), ?_, ordersOwned_of_isOwned (by decide +kernel), by decide +kernel,
      by decide +kernel, by decide +kernel⟩
    unfold State.numbersSound
    decide

/-- One entry: kinds 0 and 4 and zone 16; a unit of each kind without a number; the present zone and another one, for a
channel (its kind full and with room), for a fan (a jet fan in FIRE and an excluded zone, and another), and for a door (in
a zone whose latch is set, and in one whose latch is clear; its beacon confirmed otherwise, under way, and its queue full). -/
theorem witness_ZoneMapAppliesEntries_entry :
    (mixed 16 95).shaped ∧
    (∀ e ∈ ([[0, 95, 0, 0], [4, 95, 0, 0], [1, 95, 16, 0]] : List (List Byte)),
      u8 e 0 = 0 ∨ 3 < u8 e 0 ∨ (16 ≤ u8 e 2 ∧ u8 e 2 ≠ 0xFF)) ∧
    (let s := mixed 16 95
    s.channel 96 = none ∧ s.fan 48 = none ∧ s.door 32 = none ∧ s.channel 95 = some co ∧ co.zone = none ∧
      s.fan 12 = some jet ∧ jet.zone = none ∧ jet.kind = .jet ∧ jet.source = .auto ∧ s.plan.regime = .fire ∧
      15 ∈ s.plan.excluded ∧ 14 ∉ s.plan.excluded ∧ (s.zone 15).latch = true ∧ (s.zone 14).latch = false ∧
      (s.door 31).map (·.zone) = some (some 7) ∧ (s.door 31).map (·.passage) = some (some 31) ∧ s.fan 31 = some passage ∧
      s.reachable 1 = true ∧ (s.entry 1).queue.length < 8) ∧
    (∀ d ∈ [{ door with state := .open, confirmed := none }, { door with confirmed := some .alarm },
        { door with beacon := .queued }], ∀ n ∈ [7, 8],
      let s := withDoor 31 d { mixed 16 95 with ring := { closed.ring with
        entries := closed.ring.entries.modify 0 fun e => { e with queue := List.replicate n stepFrame } } }
      s.door 31 = some d ∧ s.reachable d.station = true ∧ (s.entry d.station).queue.length = n) ∧
    (((moving none [1, 2, 3, 4] 15).zone 15).kind co.kind).members.length = 4 := by
  refine ⟨?_, by decide, by decide +kernel, by decide, by decide⟩
  unfold State.shaped
  decide

/-- No record; a record; and a shortened stale time whose moment has passed. -/
theorem witness_SetChannelAndCaptureZero :
    ((posted 6 [96] closed).orderReady 0 6 ∧ (posted 6 [96] closed).channel 96 = none) ∧
    (let s := withChannel 20 { co with lastFeed := 98000 } (posted 6 [20, 0x20, 0, 0, 0, 0, 0, 0, 0, 0, 2] closed)
    s.orderReady 0 6 ∧ s.channel 20 = some { co with lastFeed := 98000 } ∧ 1000 * 2 ≤ elapsed s.clock 98000#32) :=
  ⟨⟨orderReady_of_isReady (by decide), rfl⟩, orderReady_of_isReady (by decide), rfl, by decide⟩

/-- IDLE; no record; LOST; a capture under way; and a channel free for one. -/
theorem witness_SetChannelAndCaptureZero_capture :
    ((posted 7 [20] idle).orderReady 0 7 ∧ idle.ring.state = .idle) ∧
    ((posted 7 [20] closed).orderReady 0 7 ∧ closed.ring.state = .closed ∧ closed.channel 20 = none) ∧
    (∀ c ∈ [{ co with quality := .lost }, { co with capture := some { slot := 1, count := 0, sum := 0, lowest := 4095, highest := 0 } }, co],
      (withChannel 20 c (posted 7 [20] closed)).orderReady 0 7 ∧ (withChannel 20 c (posted 7 [20] closed)).channel 20 = some c) := by
  refine ⟨⟨orderReady_of_isReady (by decide), rfl⟩, ⟨orderReady_of_isReady (by decide), rfl, rfl⟩, fun c hc => ?_⟩
  simp only [List.mem_cons, List.not_mem_nil, or_false] at hc
  rcases hc with rfl | rfl | rfl <;> exact ⟨orderReady_of_isReady (by decide), rfl⟩

/-- Zone 16, a group out of order, and the last zone with a group at its upper ends. -/
theorem witness_SetZoneStoresAndRegrades :
    ∀ s ∈ [posted 8 [16] closed, posted 8 [15, 1, 2, 0, 1, 0] closed,
        posted 8 [15, 1, 0x88, 0x13, 0x88, 0x13, 0x88, 0x13, 0x89, 0x13, 0, 0] closed],
      s.orderReady 0 8 ∧ s.shaped := by
  intro s hs
  simp only [List.mem_cons, List.not_mem_nil, or_false] at hs
  rcases hs with rfl | rfl | rfl <;>
  · refine ⟨orderReady_of_isReady (by decide), ?_⟩
    unfold State.shaped
    decide

/-- A bad region, an odd stride, the scan of 5.10, and one with a region that ends with the window. -/
theorem witness_ScanZonesListsMatches :
    ∀ body ∈ ([[0, 1, 0xE8, 3, 1, 2, 0xFF, 0x35, 3, 0], [0, 1, 0xE8, 3, 1, 3], [0, 1, 0xE8, 3, 1, 2],
        [0, 1, 0xE8, 3, 1, 2, 0xFA, 0x7F, 6, 0]] : List (List Byte)),
      (posted 9 body scanned).orderReady 0 9 := by
  intro body hb
  simp only [List.mem_cons, List.not_mem_nil, or_false] at hb
  rcases hb with rfl | rfl | rfl | rfl <;> exact orderReady_of_isReady (by decide)

/-- The four refusals of a fan order and one that is carried out: IDLE, an unnumbered fan, a bad step, a LOCKED OUT fan, and
the last fan at its top step. -/
theorem witness_FanRunWritesRequests :
    ((posted 0x0A [47, 0, 0, 8] idle).orderReady 0 0x0A ∧ idle.ring.state = .idle) ∧
    ((posted 0x0A [48, 0, 0, 8] closed).orderReady 0 0x0A ∧ closed.unitMembers { number := 48, group := false } = none) ∧
    (∀ r ∈ [jet, { jet with state := .lockedOut }], ∀ step ∈ ([0, 8, 9] : List Byte),
      (withFan 47 r (posted 0x0A [47, 0, 0, step] closed)).orderReady 0 0x0A ∧
      (withFan 47 r closed).unitMembers { number := 47, group := false } = some [47]) := by
  refine ⟨⟨orderReady_of_isReady (by decide), rfl⟩, ⟨orderReady_of_isReady (by decide), rfl⟩, fun r hr step hs => ?_⟩
  simp only [List.mem_cons, List.not_mem_nil, or_false] at hr hs
  rcases hr with rfl | rfl <;> rcases hs with rfl | rfl | rfl <;> exact ⟨orderReady_of_isReady (by decide), rfl⟩

/-- A RUNNING fan that already does what the order asks, and one whose cap keeps it below; and a STOPPED one, each with a
part of another order. -/
theorem witness_FanRunWritesRequests_at_once :
    ∀ r ∈ [{ jetAt { step := 8, dir := .plus } with part := some { slot := 9, work := .lockout } },
        { jetAt { step := 3, dir := .plus } with cap := 3, part := some { slot := 9, work := .lockout } },
        { jet with part := some { slot := 9, work := .home .resetting } }],
      (withFan 47 r (posted 0x0A [47, 0, 0, 8] closed)).orderReady 0 0x0A ∧
      (withFan 47 r (posted 0x0B [47, 0] closed)).orderReady 0 0x0B ∧
      (withFan 47 r closed).unitMembers { number := 47, group := false } = some [47] ∧
      (withFan 47 r closed).fan 47 = some r ∧ (posted 0x0A [47, 0, 0, 8] closed).numbersSound ∧
      (posted 0x0B [47, 0] closed).numbersSound ∧
      (r.state = .running → r.commanded = { step := min 8 r.cap, dir := .plus }) := by
  intro r hr
  simp only [List.mem_cons, List.not_mem_nil, or_false] at hr
  rcases hr with rfl | rfl | rfl <;>
  · refine ⟨orderReady_of_isReady (by decide), orderReady_of_isReady (by decide), rfl, rfl, ?_, ?_, by decide⟩ <;>
    · unfold State.numbersSound
      decide

/-- The fans that a FAN RUN, FAN STOP, FAN HOME or FAN LOCKOUT finds: LOCKED OUT, UNREACHABLE, in FAULT with and without
standstill, RUNNING at the target and away from it, STOPPED with and without a cap, QUEUED without a slot with and without
a cap; each without a part and, where it can carry one, with a part of the order in slot 63. -/
def found : List Fan :=
  [{ jet with state := .lockedOut }, { jet with state := .unreachable }, { jet with state := .fault, cause := .driveFault },
    { jet with state := .fault, cause := .driveFault, heard := true, standstill := true }, jetAt { step := 8, dir := .plus },
    jetAt { step := 6, dir := .plus }, jet, { jet with cap := 0 },
    { jet with state := .queued, requested := { step := 7, dir := .plus } },
    { jet with state := .queued, requested := { step := 7, dir := .plus }, cap := 0 }].flatMap fun r =>
    [r, { r with part := some { slot := 63, work := .lockout } }]

/-- Fan 47 as found, and the group 46 of it and of a STOPPED fan; in slot 63 an order for both, or for fan 47 only. -/
def manning (code : Nat) (group : Bool) (both : Bool) (r : Fan) : State :=
  let mark : Option Nat := if group then some 46 else none
  { withFan 46 { jet with group := mark, part := some { slot := 63, work := .lockout } } (withFan 47 { r with group := mark }
      (posted code (if group then [46, 1, 0, 8] else [47, 0, 0, 8]) closed)) with
    active := [{ slot := 63, copy := List.replicate 64 10,
                 work := .fans ((if both then [{ fan := 46, outcome := none }] else []) ++ [{ fan := 47, outcome := none }]) true }] }

/-- The fans that a changed target moves, with their state after it: a fan STOPPED and ready; QUEUED without a slot; a start
that falls to step 0 or turns; RUNNING away from the target and at it; RAMPING; RUNNING DOWN. -/
def moved : List (Fan × FanState) :=
  let start : Fan := { jetAt { step := 1, dir := .plus } with slotHeld := true }
  [({ jet with requested := { step := 8, dir := .plus } }, .queued), ({ jet with state := .queued }, .stopped),
    ({ start with state := .queued, requested := { step := 0, dir := .plus } }, .runningDown),
    ({ start with state := .energizing, requested := { step := 8, dir := .minus } }, .runningDown),
    ({ jetAt { step := 2, dir := .plus } with requested := { step := 8, dir := .minus } }, .ramping),
    (jetAt { step := 8, dir := .plus }, .running), ({ jetAt { step := 2, dir := .plus } with state := .ramping }, .ramping),
    ({ jet with state := .runningDown, requested := { step := 8, dir := .minus } }, .runningDown)]
theorem witness_FanRunWritesRequests_moves :
    (∀ x ∈ moved, (withFan 47 x.1 closed).fan 47 = some x.1 ∧ x.1.afterTarget x.1.requested = x.2 ∧
      (withFan 47 x.1 closed).reachable x.1.station = true ∧ 47 ∉ (closed.feeder 2).waiting ∧ x.1.stepFrame = .none ∧
      x.1.requested.step ≤ x.1.top) ∧
    (∀ x ∈ moved, x.1.state ≠ .ramping → x.2 = .runningDown → x.1.state ≠ .runningDown →
      x.1.lastSent ≠ some { x.1.commanded with step := 0 }) ∧
    (closed.entry 1).queue = [] ∧ closed.numbersSound ∧ closed.shaped ∧ closed.jGap = 0 := by
  refine ⟨by decide, by decide, rfl, ?_, ?_, rfl⟩
  · unfold State.numbersSound
    decide
  · unfold State.shaped
    decide
/-- Each of these fans, and one LOCKED OUT, is found by FAN RUN in either direction and by FAN STOP, FAN HOME and FAN
LOCKOUT. -/
theorem witness_FanOrders_states :
    ∀ x ∈ (({ jet with state := .lockedOut } : Fan), FanState.lockedOut) :: moved,
      ∀ code ∈ [0x0A, 0x0B, 0x0C, 0x0D], ∀ dir ∈ ([0, 1] : List Byte),
      let s := withFan 47 x.1 (posted code [47, 0, dir, 8] closed)
      isReady s 0 code = true ∧ s.fan 47 = some x.1 ∧ s.reachable x.1.station = true ∧
        s.unitMembers (fanUnit (s.orderBody 0)) = some [47] := by decide +kernel

/-- What `partsSuperseded` and the taking of parts ask for, for each of the four orders. -/
theorem witness_FanOrders_parts :
    ∀ code ∈ [0x0A, 0x0B, 0x0C, 0x0D], ∀ group ∈ [false, true], ∀ both ∈ [false, true], ∀ r ∈ found,
      let s := manning code group both r
      isReady s 0 code = true ∧ s.ring.state = .closed ∧ s.orderNumbers = [0, 63] ∧ s.jWrite < 256 ∧
      s.unitMembers (fanUnit (s.orderBody 0)) = some (if group then [46, 47] else [47]) ∧
      (∀ f ∈ [46, 47], (s.fan f).any (fun q => s.reachable q.station && q.part.all fun p => p.slot == 63)) ∧
      (s.activeOrder 63).isSome = true := by decide +kernel
theorem witness_FanOrders_shaped : (manning 0x0C true true jet).shaped := by
  unfold State.shaped
  decide
theorem witness_FanOrders_fits (code : Nat) (group both : Bool) :
    ∀ r ∈ found, (manning code group both r).partFits 0 r := by
  intro r hr
  refine ⟨.inr (.inr ?_), fun p hp => ?_⟩
  all_goals
    simp only [found, List.flatMap_cons, List.flatMap_nil, List.mem_append, List.mem_cons, List.not_mem_nil, or_false] at hr
    rcases hr with (rfl | rfl) | (rfl | rfl) | (rfl | rfl) | (rfl | rfl) | (rfl | rfl) | (rfl | rfl) | (rfl | rfl) |
      (rfl | rfl) | (rfl | rfl) | (rfl | rfl)
  all_goals first | rfl | (cases hp <;> decide)

/-- Each of the three orders in IDLE, for no unit, for a LOCKED OUT fan, and for a STOPPED fan that nothing drives. -/
theorem witness_FanStopHomeLockoutAskForRest :
    ∀ code ∈ [0x0B, 0x0C, 0x0D],
      ((posted code [47, 0] idle).orderReady 0 code ∧ idle.ring.state = .idle) ∧
      ((posted code [48, 0] closed).orderReady 0 code ∧ closed.unitMembers { number := 48, group := false } = none) ∧
      (∀ r ∈ [jet, { jet with state := .lockedOut }],
        (withFan 47 r (posted code [47, 0] closed)).orderReady 0 code ∧
        (withFan 47 r closed).unitMembers { number := 47, group := false } = some [47]) ∧
      jet.state = .stopped ∧ jet.part = none ∧ jet.lastSent = some jet.commanded := by
  intro code hc
  simp only [List.mem_cons, List.not_mem_nil, or_false] at hc
  rcases hc with rfl | rfl | rfl <;>
  · refine ⟨⟨orderReady_of_isReady (by decide), rfl⟩, ⟨orderReady_of_isReady (by decide), rfl⟩, fun r hr => ?_, rfl, rfl, rfl⟩
    simp only [List.mem_cons, List.not_mem_nil, or_false] at hr
    rcases hr with rfl | rfl <;> exact ⟨orderReady_of_isReady (by decide), rfl⟩

/-- No unit, a LOCKED OUT fan, and a MANUAL fan, for the orders taken in every ring state. -/
theorem witness_FanReleaseAndUnlock :
    ∀ code ∈ [0x0E, 0x0F, 0x10],
      ((posted code [48, 0] idle).orderReady 0 code ∧ idle.unitMembers { number := 48, group := false } = none) ∧
      ∀ r ∈ [{ jet with source := .manual }, { jet with state := .lockedOut }],
        (withFan 47 r (posted code [47, 0] idle)).orderReady 0 code ∧
        (withFan 47 r idle).unitMembers { number := 47, group := false } = some [47] := by
  intro code hc
  simp only [List.mem_cons, List.not_mem_nil, or_false] at hc
  rcases hc with rfl | rfl | rfl <;>
  · refine ⟨⟨orderReady_of_isReady (by decide), rfl⟩, fun r hr => ?_⟩
    simp only [List.mem_cons, List.not_mem_nil, or_false] at hr
    rcases hr with rfl | rfl <;> exact ⟨orderReady_of_isReady (by decide), rfl⟩

/-- A group of two MANUAL fans with parts of the order in slot 63, one of them LOCKED OUT or neither. -/
theorem witness_FanReleaseAndUnlock_parts :
    ∀ both ∈ [false, true], ∀ st ∈ [FanState.lockedOut, .stopped],
      let r : Fan := { jet with state := st, source := .manual, group := some 46, part := some { slot := 63, work := .lockout } }
      let s := withFan 46 { r with state := .stopped } (manning 0x0E true both r)
      isReady s 0 0x0E = true ∧ s.unitMembers (fanUnit (s.orderBody 0)) = some [46, 47] ∧ s.orderNumbers = [0, 63] ∧
        s.jWrite < 256 ∧ s.fan 47 = some r ∧ s.reachable 1 = true ∧ (s.activeOrder 63).isSome = true ∧
        ∀ f ∈ List.range 48, (s.fan f).all (fun q => q.part.isNone || q.source == .manual) = true := by decide +kernel

/-- A PASSAGE fan that no door names and one that a door names; a JET fan in OFF, in NORMAL with and without SMOKE HOLD, and
in FIRE inside and outside an excluded zone. -/
def releasing (regime : Regime) (hold : Bool) (r : Fan) : State :=
  withFan 47 { r with source := .manual } (withPlan
    (fun p => { p with regime := regime, smokeHold := hold, excluded := if regime = .fire then [15] else [] })
    (posted 0x0E [47, 0] closed))
theorem witness_FanReleaseAndUnlock_requests :
    (∀ d ∈ [door, { door with passage := some 47 }],
      (withDoor 31 d (releasing .off false passage)).orderReady 0 0x0E ∧
      (withDoor 31 d (releasing .off false passage)).door 31 = some d) ∧
    (∀ x ∈ [(Regime.off, false), (.normal, false), (.normal, true), (.fire, false)], ∀ z ∈ [some 14, some 15],
      let s := releasing x.1 x.2 { jet with zone := z }
      s.orderReady 0 0x0E ∧ s.unitMembers { number := 47, group := false } = some [47] ∧ s.plan.regime = x.1 ∧
      s.plan.smokeHold = x.2 ∧ s.fan 47 = some { jet with zone := z, source := .manual }) := by
  refine ⟨fun d hd => ?_, fun x hx z hz => ?_⟩
  · simp only [List.mem_cons, List.not_mem_nil, or_false] at hd
    rcases hd with rfl | rfl <;> exact ⟨orderReady_of_isReady (by decide), rfl⟩
  · simp only [List.mem_cons, List.not_mem_nil, or_false] at hx hz
    rcases hx with rfl | rfl | rfl | rfl <;> rcases hz with rfl | rfl <;>
      exact ⟨orderReady_of_isReady (by decide), rfl, rfl, rfl, rfl⟩

/-- One fan, and the group 4 of the fans 4 and 9, one of them LOCKED OUT. -/
theorem witness_FanProfileStoresLimits :
    (withFan 47 jet (posted 0x10 [47, 0, 8, 0, 0, 0, 0x59, 2] idle)).orderReady 0 0x10 ∧
    (let s := withFan 4 { jet with group := some 4 } (withFan 9 { jet with group := some 4, state := .lockedOut }
      (posted 0x10 [4, 1, 8, 0, 0, 0, 0x59, 2] idle))
    s.orderReady 0 0x10 ∧ s.unitMembers { number := 4, group := true } = some [4, 9]) :=
  ⟨orderReady_of_isReady (by decide), orderReady_of_isReady (by decide), by decide⟩

/-- FAN GROUP over a bad region, a list of one, an unnumbered fan, a LOCKED OUT fan, a grouped fan, and the good list of
6.8; FAN UNGROUP of an identifier and of another number. -/
def grouping (r : Fan) (body list : List Byte) : State :=
  { withFan 4 r (withFan 47 jet (posted 0x11 body closed)) with
    mem := Memory.writeBytes (posted 0x11 body closed).mem 0x7FFE list }
theorem witness_FanGroupAndUngroup :
    (grouping jet [0xFF, 0x7F, 2, 0] []).orderReady 0 0x11 ∧ (grouping jet [0xFE, 0x7F, 1, 0] [4]).orderReady 0 0x11 ∧
    (grouping jet [0xFE, 0x7F, 2, 0] [4, 46]).orderReady 0 0x11 ∧
    (grouping { jet with state := .lockedOut } [0xFE, 0x7F, 2, 0] [4, 47]).orderReady 0 0x11 ∧
    (grouping { jet with group := some 4 } [0xFE, 0x7F, 2, 0] [4, 47]).orderReady 0 0x11 ∧
    ((grouping jet [0xFE, 0x7F, 2, 0] [47, 4]).orderReady 0 0x11 ∧ (grouping jet [0xFE, 0x7F, 2, 0] [47, 4]).groups = []) ∧
    (withFan 4 { jet with group := some 4 } (posted 0x12 [4] closed)).orderReady 0 0x12 ∧
    (withFan 4 { jet with group := some 4 } (posted 0x12 [47] closed)).orderReady 0 0x12 :=
  ⟨orderReady_of_isReady (by decide), orderReady_of_isReady (by decide), orderReady_of_isReady (by decide),
    orderReady_of_isReady (by decide), orderReady_of_isReady (by decide), ⟨orderReady_of_isReady (by decide), by decide⟩,
    orderReady_of_isReady (by decide), orderReady_of_isReady (by decide)⟩

/-- Feeder 4; an allowance below the energizing count of 2; and one equal to it. -/
theorem witness_SetFeederAppliesOrDefers :
    ∀ body ∈ ([[4, 1], [2, 1], [2, 2]] : List (List Byte)),
      (posted 0x13 body feeder2).orderReady 0 0x13 ∧ (posted 0x13 body feeder2).shaped ∧
      ((posted 0x13 body feeder2).feeder 2).energizing.length = 2 := by
  intro body hb
  simp only [List.mem_cons, List.not_mem_nil, or_false] at hb
  rcases hb with rfl | rfl | rfl <;>
  · refine ⟨orderReady_of_isReady (by decide), ?_, rfl⟩
    unfold State.shaped
    decide

/-- A feeder with a fan of class 1 and two of class 0 waiting, one of which no longer asks, with room for one grant and with
none; an allowance pending that the count reaches when fan 20 gives its slot back, and one that it does not. -/
def granting (allowance : Nat) (p : Option Nat) : State :=
  withFan 20 { jetAt { step := 1, dir := .plus } with state := .energizing, slotHeld := true }
    (withFan 23 { jet with state := .queued } (withFeeder 2 { feeder2.feeder 2 with allowance := allowance, pendingLow := p } feeder2))
theorem witness_GrantsTakeWaitingFans :
    (∀ allowance ∈ [2, 3], ∀ p ∈ [none, some 1, some 0],
      let k := (granting allowance p).feeder 2
      k.pendingLow = p ∧ k.energizing.length = 2 ∧ k.allowance = allowance ∧ k.waiting = 30 :: [23, 21] ∧
      ((granting allowance p).fan 20).map (fun r => (r.feeder, r.slotHeld)) = some (2, true) ∧
      (k.energizing.erase 20).length = 1) ∧
    (closed.feeder 3).waiting = [] ∧ (granting 3 none).shaped := by
  refine ⟨by decide, rfl, ?_⟩
  unfold State.shaped
  decide

/-- A grant to a fan that waits and to one that no longer asks; its start's values those last sent, a FAN STEP outstanding,
unsent in the queue, or placed in a train just now; the queue full and with room; and a station that cannot be reached. -/
theorem witness_GrantsTakeWaitingFans_take :
    let asks : Fan := { jet with state := .queued, requested := { step := 8, dir := .plus } }
    (∀ r ∈ [asks, { asks with requested := { step := 0, dir := .plus } }, { asks with lastSent := some { step := 1, dir := .plus } },
        { asks with stepFrame := .outstanding }, { asks with stepFrame := .queued }],
      ∀ q ∈ [[], List.replicate 8 stepFrame, [{ stepFrame with origin := .fanStep 47 false }]],
      let s := withFan 47 r { closed with ring := { closed.ring with
        entries := closed.ring.entries.modify 0 fun e => { e with queue := q } } }
      s.fan 47 = some r ∧ s.reachable r.station = true ∧ (s.entry 1).queue = q) ∧
    (let s := withFan 47 asks (withStations [{ stationUp with link := .down }] closed)
    s.fan 47 = some asks ∧ s.reachable asks.station = false) := by decide

/-- No record; a bad region; an odd length; an unnumbered fan; a good order that shortens both running timers; and a cap
list replaced at an open door with a passage fan. -/
def doorSet (body list : List Byte) : State :=
  withFan 12 jet (withDoor 31 { door with
      holdTimer := some { start := 90000#32, dur := 120000 }, runOnTimer := some { start := 90000#32, dur := 30000 } }
    { posted 0x14 body closed with mem := Memory.writeBytes (posted 0x14 body closed).mem 0x7FFE list })
theorem witness_SetDoorStoresSettings :
    ((doorSet [32] []).orderReady 0 0x14 ∧ (doorSet [32] []).door 32 = none) ∧
    (∀ x ∈ ([([31, 8, 0, 0, 0, 0, 0, 0, 0xFF, 0x7F, 2, 0], []), ([31, 8, 0, 0, 0, 0, 0, 0, 0xFE, 0x7F, 1, 0], []),
        ([31, 8, 0, 0, 0, 0, 0, 0, 0xFE, 0x7F, 2, 0], [13, 3]), ([31, 15, 10, 0, 8, 0, 10, 0, 0xFE, 0x7F, 2, 0], [12, 3])] :
        List (List Byte × List Byte)),
      (doorSet x.1 x.2).orderReady 0 0x14 ∧ ((doorSet x.1 x.2).door 31).isSome = true) ∧
    (let d : Door := { door with state := .open, caps := [(47, 2)] }
    let s := withFan 47 jet (withFan 31 passage (withDoor 31 d (doorSet [31, 8, 0, 0, 0, 0, 0, 0, 0xFE, 0x7F, 2, 0] [12, 3])))
    s.orderReady 0 0x14 ∧ s.door 31 = some d ∧ s.fan 47 = some jet ∧ s.fan 12 = some jet ∧ s.fan 31 = some passage ∧
      d.passage = some 31 ∧ 31 < s.passageWritten.length ∧ passage.kind = .passage ∧ passage.source = .auto) := by
  refine ⟨⟨orderReady_of_isReady (by decide), rfl⟩, fun x hx => ?_,
    ⟨orderReady_of_isReady (by decide), rfl, rfl, rfl, rfl, rfl, by decide, rfl, rfl⟩⟩
  simp only [List.mem_cons, List.not_mem_nil, or_false] at hx
  rcases hx with rfl | rfl | rfl | rfl <;> exact ⟨orderReady_of_isReady (by decide), rfl⟩

/-- IDLE; no record; mode 4; an UNREACHABLE door; a mode confirmed; a mode to be sent; and an order to be superseded. -/
def signalled (d : Door) (mode : Byte) : State := withDoor 31 d (posted 0x15 [31, mode] closed)
theorem witness_DoorSignalSetsBeaconSource :
    ((posted 0x15 [31, 1] idle).orderReady 0 0x15 ∧ (posted 0x15 [31, 1] idle).numbersSound) ∧
    ((posted 0x15 [32, 1] closed).orderReady 0 0x15 ∧ (posted 0x15 [32, 1] closed).door 32 = none) ∧
    (∀ x ∈ ([(door, 4), ({ door with state := .unreachable }, 3), (door, 0), (door, 2)] : List (Door × Byte)),
      (signalled x.1 x.2).orderReady 0 0x15 ∧ (signalled x.1 x.2).door 31 = some x.1 ∧
      (signalled x.1 x.2).reachable 1 = true) ∧
    (let s := { signalled { door with signal := some 63 } 1 with active := [{ slot := 63, copy := [], work := .signal 31 }] }
    s.orderReady 0 0x15 ∧ s.numbersSound ∧ s.activeOrder 63 = some { slot := 63, copy := [], work := .signal 31 }) := by
  refine ⟨⟨orderReady_of_isReady (by decide), ?_⟩, ⟨orderReady_of_isReady (by decide), rfl⟩, fun x hx => ?_,
    orderReady_of_isReady (by decide), ?_, rfl⟩
  · unfold State.numbersSound
    decide
  · simp only [List.mem_cons, List.not_mem_nil, or_false] at hx
    rcases hx with rfl | rfl | rfl | rfl <;> exact ⟨orderReady_of_isReady (by decide), rfl, rfl⟩
  · unfold State.numbersSound
    decide

/-- An ACK of the wanted mode and of another, NO DELIVERY and NO ANSWER, at a door with a signal order in hand and without
one, its queue full and with room for one frame. -/
theorem witness_DoorSignalSetsBeaconSource_ended :
    ∀ k ∈ [none, some 63], ∀ n ∈ [7, 8],
      let d : Door := { door with signal := k, source := .manual, manualMode := .alarm, beacon := .outstanding }
      let s := { withDoor 31 d closed with
        active := [{ slot := 63, copy := List.replicate 64 21, work := .signal 31 }]
        ring := { closed.ring with
          entries := closed.ring.entries.modify 0 fun e => { e with queue := List.replicate n stepFrame } } }
      s.door 31 = some d ∧ s.reachable d.station = true ∧ Memory.wf s.mem = true ∧ (s.entry 1).queue.length = n ∧
      beaconMode s.plan d = .alarm ∧ BeaconMode.guide ≠ .alarm ∧ (s.activeOrder 63).isSome = true := by decide

/-- An unknown regime, NORMAL in IDLE, a fire zone that is not configured, and OFF, NORMAL and FIRE in zone 7. -/
theorem witness_VentPlanAppliesRegime :
    (posted 0x16 [3] threeJets).orderReady 0 0x16 ∧ (posted 0x16 [1] idle).orderReady 0 0x16 ∧
    ((posted 0x16 [2, 15, 0] threeJets).orderReady 0 0x16 ∧ (threeJets.zone 15).configured = false) ∧
    (∀ body ∈ ([[0], [1], [2, 7, 1, 0]] : List (List Byte)),
      (posted 0x16 body threeJets).orderReady 0 0x16 ∧ (posted 0x16 body threeJets).ordersOwned) ∧
    (threeJets.zone 7).configured = true := by
  refine ⟨orderReady_of_isReady (by decide), orderReady_of_isReady (by decide), ⟨orderReady_of_isReady (by decide), rfl⟩,
    fun body hb => ?_, rfl⟩
  simp only [List.mem_cons, List.not_mem_nil, or_false] at hb
  rcases hb with rfl | rfl | rfl <;> exact ⟨orderReady_of_isReady (by decide), ordersOwned_of_isOwned (by decide)⟩

/-- A bad direction; OFF; NORMAL with and without SMOKE HOLD. -/
theorem witness_SetStagesStoresGroups :
    (posted 0x17 [8, 0, 0, 0, 0, 0, 0, 0, 0, 0, 2] closed).orderReady 0 0x17 ∧
    (∀ g ∈ [Planner.reset, { Planner.reset with regime := .normal }, { Planner.reset with regime := .normal, smokeHold := true }],
      ({ posted 0x17 [15, 1, 2, 3, 4, 49] closed with plan := g } : State).orderReady 0 0x17) := by
  refine ⟨orderReady_of_isReady (by decide), fun g hg => ?_⟩
  simp only [List.mem_cons, List.not_mem_nil, or_false] at hg
  rcases hg with rfl | rfl | rfl <;> exact orderReady_of_isReady (by decide)

/-- Both operations: IDLE, no record, count 0, a bad region, a bad length, a DOWN station, an active context, an INCREMENT
transfer up to the last index, and a PAIRED one whose index 256 is read. -/
def transferOrder (code : Nat) (body : List Byte) (s : State) : State :=
  { posted code body s with mem := Memory.writeBytes (posted code body s).mem 0x7FFC [0, 1, 7, 0] }
theorem witness_ParamOrdersFormFirstFrame :
    ∀ code ∈ [0x18, 0x19],
      ∀ s ∈ [transferOrder code [2, 0] idle, transferOrder code [3, 0] closed, transferOrder code [2, 0] closed,
          transferOrder code [2, 0, 255, 0, 1, 0, 0xFF, 0x7F, 2, 0] closed,
          transferOrder code [2, 0, 255, 0, 1, 0, 0xFE, 0x7F, 1, 0] closed,
          transferOrder code [2, 0, 255, 0, 1, 0, 0xFE, 0x7F, 2, 0] (withStations [stationUp, { stationUp with link := .down }] closed),
          { transferOrder code [1, 0, 255, 0, 1, 0, 0xFE, 0x7F, 2, 0] closed with
            params := closed.params.set 0 (some (transfer true)) },
          transferOrder code [2, 0, 99, 0, 2, 0, 0xFC, 0x7F, 4, 0] closed,
          transferOrder code [2, 2, 0, 0, 1, 0, 0xFC, 0x7F, 4, 0] closed],
        s.orderReady 0 code ∧ s.shaped := by
  intro code hc s hs
  simp only [List.mem_cons, List.not_mem_nil, or_false] at hc hs
  rcases hc with rfl | rfl <;> rcases hs with rfl | rfl | rfl | rfl | rfl | rfl | rfl | rfl | rfl <;>
  · refine ⟨orderReady_of_isReady (by decide), ?_⟩
    unfold State.shaped
    decide

/-- A frame in flight of a READ and of a WRITE in each mode, with words left and with none, marked aborted or not, and its
entry in the table of outstanding frames. -/
theorem witness_ParamReplyGoesOnOrEnds :
    (∀ write, ∀ aborted, ∀ mode ∈ [StepMode.increment, .fixed, .paired], ∀ count ∈ [1, 256],
      let x : Transfer := { transfer true with write := write, mode := mode, count := count, aborted := aborted }
      let s : State := { closed with params := closed.params.set 1 (some x) }
      s.param 2 = some x ∧ x.frame = some { indices := [99], payload := [99, 0], sent := true } ∧
        Memory.wf s.mem = true ∧ 0x3600 ≤ x.offset ∧ x.slot < 64) ∧
    ((transferring true).activeOrder 63).isSome = true ∧ closed.reachable 2 = true ∧
    (let o : OutFrame :=
      { station := 1, tag := 17, frame := { kind := .param, payload := [99, 0], origin := .param, held := 0 }, mask := 2, tries := 1,
        lastSent := 200, delivery := .awaiting 200 }
    ({ closed with ring := { closed.ring with outstanding := [o] } } : State).outFrame 17 = some o) := by decide

/-- No ENROL and a quiet train; and in CLOSED a second train lost in succession. -/
theorem witness_CycleTimerOpensNextCycle :
    (let s := { closed with
      ring := { closed.ring with trainA := some { emptyTrain with accepted := false } }, fold := { Fold.reset with runA := 1 } }
    s.ring.state ≠ .idle ∧ s.ring.phase = .running ∧ timerDue s.clock s.ring.timer = true ∧ s.enrol = none ∧
      s.ring.state = .closed ∧ s.ring.lostTrain .a = true ∧ s.fold.runA < 2 ∧ Memory.wf s.mem = true) ∧
    closed.numbersSound ∧ closed.ring.lostTrain .a = false := by
  refine ⟨by decide, ?_, rfl⟩
  unfold State.numbersSound
  decide

theorem witness_CycleTimerOpensNextCycle_fold :
    (let s := { closed with
      ring := { closed.ring with trainA := some { emptyTrain with accepted := false } }, fold := { Fold.reset with runA := 2 } }
    s.ring.state = .closed ∧ s.ring.phase = .running ∧ timerDue s.clock s.ring.timer = true ∧ s.enrol = none ∧
      s.ring.kind = .one ∧ s.ring.lostTrain .a = true ∧ s.fold.runA = 2 ∧ s.fold.recloseDue = false) := by decide

/-- RECLOSING in cycle 200 with reclose cycle `r`. -/
def reclosing (r : CycleNo) (kind : CycleKind) : State :=
  { closed with
    ring := { closed.ring with state := .reclosing, kind := kind }
    fold := { Fold.reset with cause := .signalLoss, reclosing := some r } }

/-- An unreadable header once the train is accepted: while two trains run, in the cycle that closed the ring, while one
runs, and in the last cycle of an attempt; and between a close and the opening. -/
theorem witness_TrainArrivalAcceptsOrCounts_unreadable :
    readHeader [] = none ∧
    (∀ k ∈ [CycleKind.two, .closedTwo],
      let s := { closed with ring := { closed.ring with kind := k } };
      s.ring.state ≠ .idle ∧ s.ring.kind = k ∧ s.ring.train .a = some emptyTrain ∧ emptyTrain.accepted = true ∧
      s.ring.train .b = none) ∧
    (closed.ring.kind = .one ∧ closed.ring.train .a = some emptyTrain) ∧
    (let s := reclosing 198 .recloseOne;
      s.ring.state = .reclosing ∧ s.ring.kind = .recloseOne ∧ s.fold.reclosing = some 198 ∧
        s.ring.train .a = some emptyTrain) ∧
    (let s := { awaiting closed with ring := { (awaiting closed).ring with phase := .closing } };
      s.ring.phase ≠ .running ∧ s.ring.cycle = 200 ∧ s.ring.train .a = some sent) := by decide

/-- IDLE; the numbers just outside and just inside the cycles opened; the train of the cycle in each ring state, and in the
cycles r and r + 2 of an attempt; an unreadable header while one train runs and while two do; an ENROL in progress. -/
theorem witness_TrainArrivalAcceptsOrCounts :
    idle.ring.state = .idle ∧
    (readHeader (headed 0) = some { cycle := 0, side := .a } ∧ closed.ring.opened = (closed.ring.cycle - 0#16).toNat ∧
      readHeader (headed 1) = some { cycle := 1, side := .a } ∧ (closed.ring.cycle - 1#16).toNat + 1 = closed.ring.opened ∧
      readHeader (headed 199) = some { cycle := 199, side := .a } ∧
      readHeader (headed 200) = some { cycle := closed.ring.cycle, side := .a } ∧ readHeader [] = none) ∧
    (∀ s ∈ [awaiting closed, awaiting enrolSlot, awaiting folded, awaiting (reclosing 198 .recloseOne),
        awaiting (reclosing 200 .two)],
      s.ring.state ≠ .idle ∧ s.ring.phase = .running ∧ s.ring.cycle = 200 ∧ s.ring.opened = 200 ∧
      s.ring.train .a = some sent ∧ sent.accepted = false) ∧
    (∀ s ∈ [closed, folded, enrolSlot, reclosing 198 .recloseOne], s.ring.train .a = some emptyTrain) ∧
    ((reclosing 198 .recloseOne).fold.reclosing = some 198 ∧ (199 : CycleNo) = 198 + 1 ∧
      (reclosing 198 .recloseOne).ring.cycle = 198 + 2) ∧
    closed.enrol = none ∧
    (enrolSlot.enrol.map (·.slot) = some 63 ∧ (enrolSlot.activeOrder 63).isSome = true ∧ enrolSlot.numbersSound ∧
      Memory.wf enrolSlot.mem = true) := by
  refine ⟨rfl, by decide +kernel, by decide, by decide, by decide, rfl, rfl, rfl, ?_, rfl⟩
  unfold State.numbersSound
  decide

/-- No change; a loss in CLOSED, in RECLOSING and in ENROLLING; a return; a loss at A in CLOSED. -/
theorem witness_SignalDetectChangeFolds :
    closed.sigA = true ∧ closed.sigB = true ∧ closed.ring.state = .closed ∧ idle.sigB = false ∧
    ({ closed with ring := { closed.ring with state := .reclosing } } : State).ring.state = .reclosing ∧
    (enrolSlot.ring.state = .enrolling ∧ enrolSlot.sigB = true ∧ enrolSlot.enrol.isSome = true ∧
      (enrolSlot.activeOrder 63).isSome = true ∧ enrolSlot.jWrite < 256 ∧ Memory.wf enrolSlot.mem = true) ∧
    closed.numbersSound := by
  refine ⟨rfl, rfl, rfl, rfl, rfl, by decide, ?_⟩
  unfold State.numbersSound
  decide

/-- A close about to come at which nothing is lost, and one whose first part has been made. -/
theorem closed_quietClose : closed.quietClose := by
  unfold State.quietClose
  decide
theorem closing_quietClose : ({ closed with ring := { closed.ring with phase := .closing } } : State).quietClose := by
  unfold State.quietClose
  decide

/-- The take cycle is the fifth before the one that closes. -/
theorem witness_ReplyLimitAndStationTimeouts :
    (let s := { closed with ring := { closed.ring with outstanding := [{ sentStep with delivery := .awaiting 195 }] } }
    s.quietClose ∧ s.outFrame 17 = some { sentStep with delivery := .awaiting 195 } ∧ 5 ≤ (s.ring.cycle - 195#16).toNat) := by
  refine ⟨?_, by decide, by decide⟩
  unfold State.quietClose
  decide

/-- A rest that began 9 cycles before the cycle that opens; a frame of each originator at the head of a queue, and a retry,
held at 19 openings. -/
theorem witness_TagRestAndHeldFrameEnds :
    (let s := { closed with ring := { closed.ring with resting := [(17, 192)] } }
    s.quietClose ∧ (17, 192#16) ∈ s.ring.resting ∧ 9 ≤ (s.ring.cycle + 1 - 192#16).toNat) ∧
    (∀ x ∈ [(FrameKind.pageRequest, Origin.page), (.fanStep, .fanStep 47 true), (.fanReset, .fanReset 47),
        (.doorBeacon, .beacon 31 .guide), (.param, .param), (.fanReset, .nobody)],
    let f : QFrame := { kind := x.1, payload := [0], origin := x.2, held := 19 }
    let s := { closed with ring := { closed.ring with
      phase := .opening, entries := closed.ring.entries.modify 23 fun e => { e with intake := .plainOnly, queue := [f] } } }
    s.ring.phase = .opening ∧ (s.entry 24).intake ≠ .open ∧ (s.entry 24).queue = f :: [] ∧ 19 ≤ f.held ∧
      ∀ o ∈ s.ring.outstanding, o.station = 24 → o.delivery = .retry → o.frame.held < 19) ∧
    (let o : OutFrame := { sentStep with delivery := .retry, frame := { stepFrame with held := 19 } }
    let s := { closed with ring := { closed.ring with
      phase := .opening, outstanding := [o], entries := closed.ring.entries.modify 0 fun e => { e with intake := .closed } } }
    (s.entry 1).intake ≠ .open ∧ o ∈ s.ring.outstanding ∧ o.station = 1 ∧ o.delivery = .retry ∧ 19 ≤ o.frame.held) := by
  refine ⟨⟨?_, by decide, by decide⟩, by decide, by decide⟩
  unfold State.quietClose
  decide

/-- The page requested 20 cycles ago, and PENDING for 40. -/
theorem witness_ReplyLimitAndStationTimeouts_down :
    (let s := withStations [{ Station.created 180 with link := .paging }, { stationUp with link := .pending, pendingSince := some 160 }] closed
    s.quietClose ∧ 20 ≤ (s.ring.cycle - 180#16).toNat ∧ 40 ≤ (s.ring.cycle - 160#16).toNat ∧
      (s.station 1).isSome = true ∧ (s.station 2).isSome = true) := by
  refine ⟨?_, by decide, by decide, rfl, rfl⟩
  unfold State.quietClose
  decide

/-- The heal condition held for exactly the heal time, with the condition holding and failing; and the close of r + 2. -/
theorem witness_HealAndReclose :
    (foldedQuiet.quietClose ∧ foldedQuiet.ring.state = .folded ∧ foldedQuiet.fold.healStart = some 98000 ∧
      foldedQuiet.ring.healTime = elapsed foldedQuiet.clock 98000 ∧ foldedQuiet.sigA = true) ∧
    ({ foldedQuiet with sigA := false } : State).quietClose ∧
    (let s := { foldedQuiet with
      ring := { foldedQuiet.ring with state := .reclosing, kind := .recloseOne, trainB := none }
      fold := { Fold.reset with reclosing := some 198 } }
    s.quietClose ∧ s.fold.reclosing = some 198 ∧ s.ring.cycle = 198 + 2) := by
  refine ⟨⟨?_, rfl, rfl, rfl, rfl⟩, ?_, ?_, rfl, rfl⟩ <;>
  · unfold State.quietClose
    decide

/-- The opening of the reclose cycle with no train-wide frame asked for, the opening of a later cycle of the attempt, and
the train of the cycle in RECLOSING while two trains run and while one does. -/
theorem witness_HealAndReclose_opening :
    (let s := { foldedQuiet with
      ring := { foldedQuiet.ring with phase := .opening }, fold := { foldedQuiet.fold with recloseDue := true } }
    s.ring.state = .folded ∧ s.ring.phase = .opening ∧ s.fold.recloseDue = true ∧ s.enrol = none ∧ s.ring.trainWide = []) ∧
    (let s := { reclosing 199 .two with ring := { (reclosing 199 .two).ring with phase := .opening } }
    s.ring.state = .reclosing ∧ s.ring.phase = .opening ∧ s.fold.reclosing = some 199 ∧ (199 : CycleNo) ≠ s.ring.cycle) ∧
    ∀ kind ∈ [CycleKind.two, .recloseOne],
      (awaiting (reclosing 199 kind)).ring.state = .reclosing ∧ (awaiting (reclosing 199 kind)).ring.phase = .running ∧
      (awaiting (reclosing 199 kind)).ring.opened = 200 ∧ (awaiting (reclosing 199 kind)).ring.cycle = 200 ∧
      (awaiting (reclosing 199 kind)).ring.trainA = some sent := by decide

/-- The highest code; a suspect sample; a capture that goes on and one that ends. -/
theorem witness_SampleFeedsChannel :
    (4095 ≤ 4095) ∧ (withChannel 95 co closed).channel 95 = some co ∧
    (let c (n : Nat) : Channel := { co with capture := some { slot := 63, count := n, sum := 800 * n, lowest := 800, highest := 800 } }
    let s := { withChannel 95 (c 7) closed with active := [{ slot := 63, copy := List.replicate 64 7, work := .capture 95 }] }
    (withChannel 95 (c 6) closed).channel 95 = some (c 6) ∧ s.channel 95 = some (c 7) ∧
      (s.activeOrder 63).isSome = true ∧ s.numbersSound ∧ Memory.wf s.mem = true) := by
  refine ⟨Nat.le_refl _, rfl, rfl, rfl, rfl, ?_, rfl⟩
  unfold State.numbersSound
  decide

/-- A SAMPLES reply of no entry, of 9, and of one; an entry of the highest local index that a station of 8 channels can
have, one that a station of 1 does not have, a station that is PENDING, and one without a numbered description. -/
theorem witness_SampleFeedsChannel_reply :
    (let d : Description := { firstFan := 0, fans := [], firstChannel := 88, channels := List.replicate 8 .co, firstDoor := 0, doors := [] }
    let s (r : Station) : State := withStations [r] closed
    let up : Station := { stationUp with description := some d }
    (s up).station 1 = some up ∧ up.base.map (·.channels) = some 8 ∧ d.channels.length = 8 ∧ (7 : Nat) < 8 ∧
      (∀ r ∈ [{ up with base := some { kind := 0, fans := 0, channels := 1, doors := 0, lastParam := 0, chainage := 0 } },
        { up with link := .pending }, stationUp], (s r).station 1 = some r) ∧
      (s up).reachable 1 = true ∧ (s { up with link := .down }).reachable 1 = false ∧ stationUp.description = none) := by
  decide

/-- The moment of the expiry, and a millisecond before it. -/
theorem witness_KindsAggregateGradeAndExpire_stale :
    (withChannel 95 { co with lastFeed := 95000 } closed).channel 95 = some { co with lastFeed := 95000 } ∧
      1000 * co.stale = elapsed closed.clock 95000 ∧ ¬1000 * co.stale ≤ elapsed closed.clock 95001 := by decide

/-- A configured zone whose level is the largest, one whose larger level does not count, and no configured zone; and a
kind in each state. -/
theorem witness_KindsAggregateGradeAndExpire_levels :
    (let z : Zone := { Zone.reset with co := present [95] 3, level := 2 }
    let other : Zone := { Zone.reset with level := 4 }
    z.configured = true ∧ other.configured = false ∧ z.level < other.level ∧ 0 < tunnelLevelOf [other, z]) ∧
    ∀ v ∈ [ValueState.none, .absent, .present, .held], ({ present [95] 3 with vstate := v } : ZoneKind).vstate = v := by
  decide

/-- Usable members, and none with and without a hold time; and the highest level. -/
theorem witness_KindsAggregateGradeAndExpire :
    (withChannel 95 { co with quality := .good, value := 3 } closed).usableValues [95] = [3] ∧
      closed.usableValues [95] = [] ∧ (present [95] 3).vstate = .present ∧ (4 : Nat) ≤ 4 := by decide

/-- A VIS channel of the last zone whose value reaches the smoke threshold, with the latch clear, an open door of the zone,
and its passage fan; the same with the latch set and a clear value; and a channel without a zone. -/
def smoky (latch : Bool) (v : Int) : State :=
  withFan 31 passage (withDoor 31 { door with state := .open, zone := some 15 }
    (withZone 15 { Zone.reset with vis := { present [95] 60 with vstate := .held }, latch := latch }
      (withChannel 95 { co with kind := .vis, zone := some 15, quality := .good, value := v } closed)))
theorem witness_SmokeLatchMovesWithReport :
    ∀ x ∈ [(false, (120 : Int)), (true, 60), (true, 120)],
      (smoky x.1 x.2).channel 95 = some { co with kind := .vis, zone := some 15, quality := .good, value := x.2 } ∧
      (smoky x.1 x.2).shaped ∧ ((smoky x.1 x.2).zone 15).latch = x.1 ∧ ((smoky x.1 x.2).zone 15).smoke = 120 ∧
      (smoky x.1 x.2).door 31 = some { door with state := .open, zone := some 15 } ∧
      (smoky x.1 x.2).fan 31 = some passage ∧ (withChannel 95 co closed).channel 95 = some co ∧ co.zone = none := by
  intro x hx
  simp only [List.mem_cons, List.not_mem_nil, or_false] at hx
  rcases hx with rfl | rfl | rfl <;>
  · refine ⟨rfl, ?_, rfl, rfl, rfl, rfl, rfl, rfl⟩
    unfold State.shaped
    decide

/-- In NORMAL: a rise of the tunnel level without SMOKE HOLD, one with it, and the clearing of it. -/
theorem witness_SmokeLatchMovesWithReport_rise :
    let normal (hold : Bool) (s : State) : State :=
      withPlan (fun p => { p with regime := .normal, smokeHold := hold, smokeCount := if hold then 1 else 0 }) s
    (∀ hold ∈ [false, true],
      let s := normal hold (smoky hold 120);
      s.plan.regime = .normal ∧ s.plan.smokeHold = hold ∧ (s.reportChannel 95).tunnelLevel ≠ s.tunnelLevel ∧
      s.plan.tunnel < (s.reportChannel 95).tunnelLevel) ∧
    (let s := normal true (smoky true 60);
      s.plan.smokeHold = true ∧ (s.zone 15).latch = true ∧ ((s.reportChannel 95).zone 15).latch = false ∧
        s.plan.smokeCount = 1) := by decide +kernel

/-- The moment of the expiry, and a millisecond before it. -/
theorem witness_KindsAggregateGradeAndExpire_hold :
    (let k (x : Clock) : ZoneKind := { ZoneKind.reset with vstate := .held, heldSince := some x }
    let s := withZone 15 { Zone.reset with airv := k 70000 } closed
    ((s.zone 15).kind .airv).vstate = .held ∧ 1000 * (s.zone 15).hold = elapsed s.clock 70000 ∧
      ¬1000 * (s.zone 15).hold ≤ elapsed s.clock 70001) := by decide

/-- A fan of a station that can be reached, in a state with a timer that runs out now, and a millisecond before it. -/
def timed (st : FanState) (ms : Nat) : Fan :=
  { jet with state := st, timer := some { start := 90000#32, dur := ms } }

/-- A heartbeat entry: a fault; a fan that starts to turn; a RAMPING fan at its target; a fan at rest after its run-down
with and without a reversal; a STOPPED fan with a target; a FAN LOCKOUT and a FAN HOME waiting for the entry, the latter
of a fan in FAULT and of one set going since. -/
theorem witness_FanEntryOfHeartbeat :
    ∀ r ∈ [jetAt { step := 8, dir := .plus },
        { jetAt { step := 1, dir := .plus } with state := .energizing, slotHeld := true, requested := { step := 8, dir := .plus } },
        { jetAt { step := 8, dir := .plus } with state := .ramping }, { jet with state := .runningDown },
        { jet with state := .runningDown, reversal := true }, { jet with requested := { step := 8, dir := .plus } },
        { jet with state := .runningDown, part := some { slot := 9, work := .lockout } },
        { jet with state := .fault, part := some { slot := 9, work := .home .judging } },
        { jetAt { step := 1, dir := .plus } with
          state := .energizing, slotHeld := true, requested := { step := 8, dir := .plus },
          part := some { slot := 9, work := .home .judging } }],
      (withFan 47 r closed).fan 47 = some r ∧ closed.reachable 1 = true ∧ 47 ∉ (closed.feeder 2).class1 ∧
        47 ∉ (closed.feeder 2).class0 := by decide

/-- Fan 47 carries a part of the order in slot 63, whose other part is open for fan 46 or has ended. -/
def parted (two : Bool) (r : Fan) (w : PartWork) : State :=
  let part : Option ActivePart := some { slot := 63, work := w }
  let one (f : Nat) (o : Option OrderOutcome) : FanPart := { fan := f, outcome := o }
  { withFan 46 { jet with part := part } (withFan 47 { r with part := part } closed) with
    active := [{ slot := 63, copy := List.replicate 64 10,
                 work := .fans [one 46 (if two then none else some .ok), one 47 none] true }] }
/-- What `partEnded` asks for. -/
theorem parted_open (two : Bool) (r : Fan) (w : PartWork) :
    (parted two r w).numbersSound ∧ Memory.wf (parted two r w).mem = true ∧ (parted two r w).shaped ∧
      (parted two r w).reachable 1 = true ∧ (parted two r w).jGap = 0 ∧
      (parted two r w).fan 46 = some { jet with part := some { slot := 63, work := w } } ∧
      (parted two r w).fan 47 = some { r with part := some { slot := 63, work := w } } ∧
      ∃ o parts, (parted two r w).activeOrder 63 = some o ∧ o.work = .fans parts true ∧ FanPart.mk 47 none ∈ parts := by
  refine ⟨?_, rfl, ⟨rfl, rfl, rfl, rfl, rfl, rfl, rfl, rfl, rfl, show 2 ≤ 24 by decide⟩, rfl, rfl, rfl, rfl, _, _, rfl, rfl, by simp⟩
  refine ⟨by simp [parted, State.orderNumbers, withFan]; decide, ?_, show 0 < 256 by decide⟩
  intro k hk
  simp [parted, State.orderNumbers, withFan, closed, idle, State.reset] at hk
  omega

/-- A FAN RUN part of a fan that reaches RUNNING, and of one that a fault code stops; a FAN STOP part of a fan that comes to
rest; a FAN HOME part waiting of a fan at rest and of one in FAULT at standstill. -/
theorem witness_FanEntryOfHeartbeat_parts :
    let run : PartWork := .run { step := 8, dir := .plus }
    let eight : Speed := { step := 8, dir := .plus }
    partEnds .running eight eight true 8 run = some .ok ∧ partEnds .running eight eight true 8 (.run { eight with step := 9 }) =
      some .okClamped ∧
    (∀ x ∈ [({ jetAt eight with state := .ramping }, run), (jetAt eight, run), ({ jet with state := .runningDown }, .stop),
        ({ jet with state := .runningDown }, .home .waiting), ({ jet with state := .fault }, .home .waiting)],
      ((parted false x.1 x.2).fan 47).isSome = true ∧ 47 ∉ ((parted false x.1 x.2).feeder 2).waiting) := by decide

/-- A fan that was set going while its FAN HOME waited gives its slot back when the entry ends the part (R117, R123). -/
theorem test_home_gives_slot_back :
    let r : Fan := { jetAt { step := 1, dir := .plus } with
      state := .energizing, slotHeld := true, requested := { step := 8, dir := .plus },
      part := some { slot := 9, work := .home .judging } }
    let s := (withFeeder 2 { Feeder.reset with energizing := [47] } (withFan 47 r closed)).fanHeartbeat 47 r.actual false 0
    (s.fan 47).map (fun x => (x.state, x.slotHeld, x.commanded.step)) = some (.stopped, false, 0) ∧
      (s.feeder 2).energizing = [] := by decide +kernel

/-- A start's FAN STEP answered NOT READY for the first, the second and the third time; a frame that was no start, or whose
fan waits no more; a fan in FAULT and one LOCKED OUT; the feeder's queue with another fan, and an allowance pending. -/
theorem witness_FanFrameEndingsMoveFan :
    let start : Fan := { heldFan with part := none, notReady := 0, stepFrame := .outstanding }
    (∀ r ∈ [start, { start with notReady := 1 }, { start with notReady := 2 }, { start with slotHeld := false, state := .running },
        { start with state := .fault, slotHeld := false }, { start with state := .lockedOut, slotHeld := false }],
      let s := withFeeder 1 { Feeder.reset with energizing := [47], class0 := [46], pendingLow := some 1 } (withFan 47 r closed)
      s.fan 47 = some r ∧ s.reachable r.station = true ∧ (s.entry 1).queue = [] ∧
      47 ∉ (s.feeder r.feeder).waiting) ∧
    closed.shaped := by
  refine ⟨by decide, ?_⟩
  unfold State.shaped
  decide

/-- At STEP ACK NOT READY with seven frames queued the fan's own FAN STEP takes the last place, and the start frame of the
waiting fan of the same station that is granted the slot finds the queue full (R8, R127, log 88). -/
theorem test_not_ready_frame_before_grant :
    let held : Fan := { jet with feeder := 1, state := .queued, slotHeld := true, commanded := { step := 1, dir := .plus } }
    let waiting : Fan := { jet with feeder := 1, state := .queued, requested := { step := 3, dir := .plus } }
    let filler : QFrame := { kind := .param, payload := [], origin := .nobody, held := 0 }
    let s := (withFeeder 1 { Feeder.reset with allowance := 1, energizing := [47], class0 := [46] }
      (withFan 46 waiting (withFan 47 held closed))).modEntry 1 fun e => { e with queue := List.replicate 7 filler }
    let t := s.fanStepEnded 47 true (.reply 1)
    (s.fan 47 = some held ∧ s.reachable held.station = true ∧
      ∀ q ∈ (s.entry held.station).queue, q.origin = .nobody) ∧
      (t.fan 46).map (fun r => (r.slotHeld, r.lastSent)) = some (true, some { step := 0, dir := .plus }) ∧
      ((t.entry 1).queue.getLast?).map (fun q => (q.origin, q.payload)) = some (.fanStep 47 false, [0, 0, 0]) ∧
      (t.feeder 1).energizing = [46] ∧ (t.feeder 1).class0 = [47] := by decide +kernel

/-- STEP ACK REFUSED takes a LOCKED OUT fan to FAULT too (R101, R109); a fault code leaves it LOCKED OUT (R102). -/
theorem test_locked_out_refused :
    let s := withFan 47 { jet with state := .lockedOut } closed
    ((s.fanStepEnded 47 false (.reply 2)).fan 47).map (fun r => (r.state, r.cause)) = some (.fault, .driveFault) ∧
      ((s.fanHeartbeat 47 jet.actual true 9).fan 47).map (fun r => (r.state, r.faultCode)) = some (.lockedOut, 9) := by
  decide +kernel

/-- A FAN HOME that waits for its RESET ACK, in FAULT, STOPPED and LOCKED OUT; one past it; and no part at all. -/
theorem witness_FanFrameEndingsMoveFan_reset :
    ∀ r ∈ [{ jet with state := .fault, part := some { slot := 63, work := .home .resetting } },
        { jet with part := some { slot := 63, work := .home .resetting } },
        { jet with state := .lockedOut, part := some { slot := 63, work := .home .resetting } },
        { jet with state := .fault, part := some { slot := 63, work := .home .judging } }, jet],
      let s := { withFan 47 r closed with
        active := [{ slot := 63, copy := List.replicate 64 12, work := .fans [{ fan := 47, outcome := none }] true }] }
      s.fan 47 = some r ∧ s.reachable r.station = true ∧ Memory.wf s.mem = true ∧ s.jWrite < 256 ∧
      (s.activeOrder 63).map (·.work) = some (.fans [{ fan := 47, outcome := none }] true) := by decide

theorem witness_StepIntervalExpiryRamps :
    (withFan 47 (timed .ramping 10000) closed).fan 47 = some (timed .ramping 10000) ∧ closed.reachable 1 = true ∧
      timerDue closed.clock (timed .ramping 10000).timer = true ∧ timerDue closed.clock (timed .ramping 10001).timer = false ∧
      (closed.entry 1).queue = [] ∧
      (∀ r ∈ [{ timed .ramping 10000 with requested := { step := 1, dir := .plus } },
        { timed .ramping 10000 with requested := { step := 1, dir := .plus }, stepFrame := .outstanding },
        { timed .ramping 10000 with requested := { step := 1, dir := .plus }, stepFrame := .queued }],
        (withFan 47 r closed).fan 47 = some r ∧ r.lastSent ≠ some { r.commanded with step := 1 }) ∧
      (withStations [{ stationUp with link := .down }] closed).reachable 1 = false := by
  decide
theorem witness_StepIntervalExpiryRamps_shaped : closed.shaped := by
  unfold State.shaped
  decide
theorem witness_StartRunDownAndDwellLimits :
    closed.reachable 1 = true ∧ timerDue closed.clock (timed .energizing 10000).timer = true ∧
      timerDue closed.clock (timed .energizing 10001).timer = false ∧
      (∀ st ∈ [FanState.energizing, .runningDown, .fault, .stopped],
        (withFan 47 (timed st 10000) closed).fan 47 = some (timed st 10000)) ∧
      (withFan 47 { timed .fault 10000 with part := some { slot := 63, work := .lockout } } closed).fan 47 =
        some { timed .fault 10000 with part := some { slot := 63, work := .lockout } } ∧
      47 ∉ (closed.feeder 2).class1 ∧ 47 ∉ (closed.feeder 2).class0 ∧
      (∀ st ∈ [FanState.energizing, .runningDown, .reverseDwell],
        let r : Fan := { timed st 10000 with commanded := { step := 1, dir := .plus } }
        let s := withStations [{ stationUp with link := .down }] (withFan 47 r closed)
        s.fan 47 = some r ∧ s.reachable 1 = false ∧ r.stepFrame ≠ .outstanding ∧ r.lastSent = some { step := 0, dir := .plus }) ∧
      (let r : Fan := { timed .runningDown 10000 with lastSent := none }
      r.lastSent ≠ some { r.commanded with step := 0 } ∧ (withFan 47 r closed).fan 47 = some r) := by decide
theorem witness_StartRunDownAndDwellLimits_dwell :
    closed.reachable 1 = true ∧ timerDue closed.clock (timed .reverseDwell 10000).timer = true ∧
      (∀ r ∈ [timed .reverseDwell 10000, { timed .reverseDwell 10000 with requested := { step := 1, dir := .minus } }],
        (withFan 47 r closed).fan 47 = some r) ∧
      timerDue closed.clock (timed .reverseDwell 10001).timer = false := by decide

/-- The same parts when an interval, an energize limit, a run-down limit or a dwell runs out. -/
theorem witness_StartRunDownAndDwellLimits_parts :
    let run : PartWork := .run { step := 8, dir := .plus }
    (∀ x ∈ [({ jetAt { step := 8, dir := .plus } with
          state := .ramping, commanded := { step := 7, dir := .plus }, timer := (timed .ramping 10000).timer }, run),
        (timed .energizing 10000, .stop), (timed .runningDown 10000, run),
        ({ timed .runningDown 10000 with heard := true, standstill := true }, .home .waiting), (timed .fault 10000, .lockout),
        (timed .reverseDwell 10000, .stop), (timed .reverseDwell 10000, .home .waiting)],
      timerDue (parted false x.1 x.2).clock x.1.timer = true ∧ ((parted false x.1 x.2).fan 47).isSome = true ∧
        47 ∉ ((parted false x.1 x.2).feeder 2).waiting) ∧
    partEnds .stopped jet.commanded jet.commanded true 8 .stop = some .ok := by decide

/-- A report that repeats the one before, an opening, a closing with and without a run-on time, and an opening of a door
that is HELD OPEN; it lists the fan 47 and has a passage fan. -/
theorem witness_DoorReportMovesDoor :
    ∀ r ∈ [door, { door with state := .open, reported := .open, caps := [(47, 2)] },
        { door with state := .open, reported := .open, runOn := 0, caps := [(47, 2)] },
        { door with state := .heldOpen, reported := .unlatched }, { door with caps := [(47, 0)] },
        { door with state := .unreachable }],
      let s := withFan 47 jet (withFan 31 passage (withDoor 31 { r with passage := some 31 } closed))
      s.door 31 = some { r with passage := some 31 } ∧ s.fan 47 = some jet ∧ s.fan 31 = some passage ∧
        31 < s.passageWritten.length ∧ s.passageWritten.getD 31 none = none := by decide

/-- An opening in a zone whose smoke latch is set; a cap equal to the one held, below the commanded step of a RUNNING and
of a starting fan, 0 for a RUNNING fan, and 0 for a STOPPED fan whose FAN RUN part it ends. -/
theorem witness_DoorReportMovesDoor_caps :
    (let s := withDoor 31 { door with zone := some 7 } (withZone 7 { Zone.reset with latch := true } closed)
    (s.zone 7).latch = true ∧ (s.door 31).bind (·.zone) = some 7 ∧ (s.door 31).map (·.smoke) = some false ∧ s.jGap = 0) ∧
    (∀ x ∈ [(jet, 8), (jetAt { step := 8, dir := .plus }, 3), (jetAt { step := 8, dir := .plus }, 0),
        ({ jetAt { step := 1, dir := .plus } with state := .energizing, slotHeld := true }, 0), (jet, 0)],
      let s := parted false x.1 (.run { step := 8, dir := .plus })
      (s.fan 47).isSome = true ∧ s.reachable x.1.station = true ∧ 47 ∉ (s.feeder 2).waiting ∧ x.2 ≤ x.1.top) ∧
    partEnds .stopped jet.commanded jet.commanded true 0 (.run { step := 8, dir := .plus }) = some .okClamped := by decide

/-- Both timers of a door running out now and a millisecond later; its passage fan numbered and STOPPED, the request
last written another one. -/
theorem witness_DoorTimersExpire :
    (let d (ms : Nat) : Door :=
      { door with holdTimer := some { start := 90000#32, dur := ms }, runOnTimer := some { start := 90000#32, dur := ms } }
    let s := { withFan 31 passage (withDoor 31 (d 10000) closed) with
      passageWritten := closed.passageWritten.set 31 (some { step := 6, dir := .plus }) }
    s.door 31 = some (d 10000) ∧ timerDue s.clock (d 10000).holdTimer = true ∧ timerDue s.clock (d 10000).runOnTimer = true ∧
      timerDue s.clock (d 10001).holdTimer = false ∧ timerDue s.clock (d 10001).runOnTimer = false ∧
      (d 10000).passage = some 31 ∧ s.fan 31 = some passage ∧ 31 < s.passageWritten.length ∧ passage.kind = .passage ∧
      passage.source = .auto) := by decide

/-- NORMAL with and without SMOKE HOLD, and FIRE, their timers running out now and a millisecond later. -/
theorem witness_PlannerTimersEvaluateAndSteer :
    (∀ hold, (withPlan (fun p => { p with regime := .normal, smokeHold := hold, planTimer := some { start := 90000#32, dur := 10000 } })
      closed).plan.smokeHold = hold) ∧
    timerDue closed.clock (some { start := 90000#32, dur := 10000 }) = true ∧
    timerDue closed.clock (some { start := 90000#32, dur := 10001 }) = false ∧
    (withPlan (fun p => { p with regime := .fire, controlTimer := some { start := 90000#32, dur := 10000 } }) closed).plan.regime =
      .fire := ⟨fun _ => rfl, by decide, by decide, rfl⟩

/-- READY clear and set; no second owed and one. -/
theorem witness_TicksCountTime :
    State.reset.formatting.isSome = true ∧ idle.formatting = none ∧ Memory.wf idle.mem = true ∧ idle.secondsOwed = 0 ∧
      0 < ({ idle with secondsOwed := 1 } : State).secondsOwed := by decide

/-- In the train of side A after its first, its third try; in no train. -/
theorem witness_ReturnedFramesAndReplies :
    inFlight.outFrame 17 = some { sentStep with lastSent := 201 } ∧ sentStep.delivery = .inTrain .a ∧ sentStep.tries < 3 ∧
      (let s := { inFlight with ring := { inFlight.ring with outstanding := [{ sentStep with tries := 3 }, { sentStep with tag := 18, delivery := .retry }] } }
      s.outFrame 17 = some { sentStep with tries := 3 } ∧ 3 ≤ ({ sentStep with tries := 3 } : OutFrame).tries ∧
        s.outFrame 18 = some { sentStep with tag := 18, delivery := .retry }) := by decide

/-- A STEP ACK that matches, one with a free tag from a station with a record, and one from an address without. -/
theorem witness_ReturnedFramesAndReplies_replies :
    (let r (tag source : Nat) : Reply := { source := source, kind := 3, qualifier := 0, tag := tag, length := 1, payload := [0] }
    ¬((r 17 1).tag = 0xFF ∧ (r 17 1).kind = 5) ∧
      inFlight.outFrame (r 17 1).tag = some { sentStep with lastSent := 201 } ∧ sentStep.station = (r 17 1).source ∧
      sentStep.frame.kind.answeredBy (r 17 1).kind = true ∧ inFlight.outFrame (r 63 2).tag = none ∧
      inFlight.station (r 63 2).source = some stationUp ∧ inFlight.station (r 63 24).source = none) := by decide

/-- A slot assigned to the last station, one assigned to an address without a record, and one assigned to ANY. -/
theorem witness_ReturnedFramesAndReplies_slots :
    inFlight.station 2 = some stationUp ∧ inFlight.station 24 = none ∧ inFlight.station 0 = none ∧
      inFlight.outFrame 63 = none := by decide

/-- A frame of each originator, with the reply that answers it; in its train for the third time; and with its take cycle
the fifth before this one. -/
theorem witness_ReturnedFramesAndReplies_originators :
    ∀ x ∈ [(FrameKind.pageRequest, Origin.page, 1), (.fanStep, .fanStep 12 true, 3), (.fanReset, .fanReset 12, 4),
        (.doorBeacon, .beacon 31 .alarm, 8), (.param, .param, 6), (.fanStep, .nobody, 3)],
      let o : OutFrame := { sentStep with frame := { stepFrame with kind := x.1, origin := x.2.1 }, tries := 3 }
      let s (o : OutFrame) : State := { closed with ring := { closed.ring with outstanding := [o] } }
      (s o).outFrame 17 = some o ∧ o.station = 1 ∧ o.delivery = .inTrain .a ∧ 3 ≤ o.tries ∧
      (x.1.answeredBy x.2.2 = true) ∧
      (s { o with delivery := .awaiting 195 }).outFrame 17 = some { o with delivery := .awaiting 195 } ∧
      5 ≤ (closed.ring.cycle - 195#16).toNat := by decide

/-- A full train: retries, queues, a pool and pending replies, with one train and with two. -/
def placing : State :=
  { closed with ring := { closed.ring with
      pool := (List.range 64).drop 1, outstanding := [{ sentStep with tag := 0, delivery := .retry, tries := 1 }],
      entries := closed.ring.entries.modify 1 fun e => { e with queue := [stepFrame, stepFrame], replies := 2 } } }
theorem witness_TrainPlacesFramesAndSlots : placing.shaped ∧ placing.tagsConserved := by
  constructor
  · unfold State.shaped
    decide
  · unfold State.tagsConserved
    decide +kernel

/-- A station in each link state at the bounds of its runs, an address without a record, and a good heartbeat with the
counts of the base page and with others. -/
def pulse (fans doors : Nat) : Heartbeat :=
  { intake := .open, replies := 0, downstream := true, upstream := true, turning := false, fanCount := fans,
    doorCount := doors, fans := [], doors := [] }
theorem witness_HeartbeatPositionsMoveLink :
    closed.station 24 = none ∧
    (∀ r ∈ [stationUp, { stationUp with missRun := 1 }, { stationUp with missRun := 2 },
        { stationUp with link := .silent, missRun := 19 }, { stationUp with link := .silent, missRun := 18 },
        { stationUp with link := .paging }, { stationUp with link := .pending, goodRun := 3 },
        { stationUp with link := .pending, goodRun := 4 }, { stationUp with link := .down, cause := .silence },
        { stationUp with link := .down, cause := .mismatch }],
      (withStations [r] closed).station 1 = some r) ∧
    stationUp.base.map (fun b => (b.fans, b.doors)) = some ((pulse 4 2).fanCount, (pulse 4 2).doorCount) ∧
    (pulse 3 2).fanCount ≠ 4 ∧ 1 ∈ foldedQuiet.ring.heard ∧ 1 ∉ closed.ring.heard := by decide

/-- A TAKE ADDRESS that reads 0, 1, 2, 25 and 26 and one that is unreadable, at the first and at the third attempt; a probe
that comes back and one that does not, for the first and for the third time. -/
theorem witness_AddressingGivesAddresses :
    (∀ e ∈ [{ slot := 63, failures := 1, addressed := false, probe := .none, excess := false, overCapacity := false },
        { slot := 63, failures := 2, addressed := false, probe := .none, excess := false, overCapacity := false },
        { slot := 63, failures := 0, addressed := true, probe := .out 1, excess := false, overCapacity := false },
        { slot := 63, failures := 0, addressed := true, probe := .out 2, excess := false, overCapacity := false }],
      ({ enrolSlot with enrol := some e } : State).enrol = some e) ∧
    (enrolSlot.activeOrder 63).isSome = true ∧ Memory.wf enrolSlot.mem = true ∧
    (∀ v ∈ ([0, 1, 2, 25, 26] : List Nat), u8 [byte v] 0 = v) ∧
    ∀ k ∈ List.range 25, (enrolSlot.entry k).queue.length < 8 := by decide

/-- A station that waits for its base page, for a fan, a channel and a door page and for its last page, re-enrolled or not,
and pages that pass. -/
def paging (w : Nat) (fans : List FanPage) (again : Bool) : Station :=
  { stationUp with
    link := .paging, reEnrol := again
    pages := { wanted := w, first := 200, base := some { kind := 0, fans := 1, channels := 1, doors := 1, lastParam := 0, chainage := 0 },
               fans := fans, channels := [], doors := [], offer := false } }
theorem witness_PagesAreCheckedAndTaken :
    (∀ again, ∀ w ∈ [0, 1, 2, 3],
      (withStations [paging w [] again] closed).station 1 = some (paging w [] again) ∧ (paging w [] again).link = .paging) ∧
    (let base : List Byte := [1, 4, 8, 2, 0, 1, 0, 0]
    u8 base 1 ≤ 4 ∧ u8 base 2 ≤ 8 ∧ u8 base 3 ≤ 2 ∧ u8 base 5 % 2 = 1 ∧ 0 < u8 base 1 + u8 base 2 + u8 base 3) ∧
    (let fan : List Byte := [1, 1, 0, 1, 8, 3, 0, 0, 0, 0, 0, 0]
    u8 fan 0 = 1 ∧ u8 fan 1 % 2 = 1 ∧ (1 : Nat) ≤ 1 ∧ u8 fan 4 = 8 ∧ u8 fan 5 = 3) ∧
    (let door : List Byte := [3, 0, 0, 1, 0xFF]
    u8 door 0 = 3 ∧ u8 door 1 % 2 = 0 ∧ ¬(3 : Nat) < 1 + 1 + 1 ∧ u8 door 4 = 0xFF) ∧
    stationUp.link ≠ .paging := by decide

/-- A moment of numbering with an UP station of a fan page, a channel page and a door page and a DOWN station; the ENROL
before its addresses, with its probe out, and waiting for a station; and a fan adopted at rest and turning. -/
def numberable : State :=
  let pages : Exchange :=
    { wanted := 3, first := 200, base := stationUp.base,
      fans := [{ kind := .jet, reversible := true, top := 8, feeder := 2, actual := { step := 3, dir := .plus }, runMinutes := 0 }],
      channels := [{ kind := .co, zero := 800, gain := 0 }], doors := [{ kind := .hinged, state := .open, passage := none }],
      offer := false }
  withStations [{ stationUp with pages := pages }, { stationUp with link := .down }]
    { enrolSlot with enrol := some { slot := 63, failures := 0, addressed := true, probe := .settled, excess := true, overCapacity := false } }
theorem witness_NumberingSeedsDevicesAndCloses :
    (numberable.shaped ∧ numberable.numbersSound ∧ Memory.wf numberable.mem = true ∧
      (numberable.enrol.map fun e => (e.addressed, e.probe)) = some (true, .settled) ∧
      (∀ r ∈ numberable.stations, r.link = .up ∨ r.link = .down) ∧
      numberable.activeOrder 63 = some { slot := 63, copy := List.replicate 64 1, work := .enrol }) ∧
    (closed.enrol = none ∧ (enrolSlot.enrol.map (·.addressed)) = some false ∧
      ∃ r ∈ (withStations [{ stationUp with link := .silent }] numberable).stations, r.link ≠ .up ∧ r.link ≠ .down) ∧
    (∀ r ∈ [jet, { jet with requested := { step := 8, dir := .minus } }],
      (withFan 47 r closed).fan 47 = some r ∧ closed.reachable r.station = true) := by
  refine ⟨⟨?_, ?_, rfl, by decide, by decide, rfl⟩, ⟨rfl, rfl, by decide⟩, by decide⟩
  · unfold State.shaped
    decide
  · unfold State.numbersSound
    decide

/-- A train with a queued frame and one of each train-wide kind. -/
theorem witness_SentTrainReadsBack :
    (let x : SentTrain := { emptyTrain with frames := [.wide (.takeAddress 1 false), .queued 17, .wide .clearAddress, .wide .reclose] }
    x.assign.length = 16 ∧ SentFrame.queued 17 ∈ x.frames ∧ x.frames[1]? = some (.queued 17) ∧
      x.frames[0]? = some (.wide (.takeAddress 1 false)) ∧ x.frames[2]? = some (.wide .clearAddress) ∧
      x.frames[3]? = some (.wide .reclose) ∧
      inFlight.outFrame 17 = some { sentStep with lastSent := 201 } ∧ stepFrame.payload.length ≤ 16) := by decide

/-- A sound state with a capture in hand, one tag outstanding and one at rest, in which a step has a next state. -/
def busy : State :=
  { capturing 62 with
    pending := [.ctrlMaskWrite 1, .idWrite 0]
    ring := { closed.ring with pool := (List.range 64).drop 2, resting := [(0, 199)], outstanding := [{ sentStep with tag := 1 }] } }

theorem busy_steps : step busy = .next { busy with pending := [.idWrite 0], mask := 1 } := rfl

theorem witness_EveryStepKeepsStateSound : Memory.wf busy.mem = true ∧ busy.shaped ∧ busy.numbersSound := by
  refine ⟨by decide, ?_, ?_⟩
  · unfold State.shaped
    decide
  · unfold State.numbersSound
    decide
/-- Zone 15 is configured and its latch set, and the planner holds so; in the second state an ENROL stands ready. -/
def latched (s : State) : State :=
  { withZone 15 { Zone.reset with vis := { present [95] 900 with level := 4 }, level := 4, latch := true }
      (withPlan (fun p => { p with smokeCount := 1, tunnel := 4, configured := [15] }) s) with tunnelLevel := 4 }
theorem witness_EveryStepKeepsStateSound_planner :
    ∀ s ∈ [latched busy, latched (posted 1 [] closed)], s.plannerSound ∧ s.shaped := by
  intro s hs
  simp only [List.mem_cons, List.not_mem_nil, or_false] at hs
  rcases hs with rfl | rfl <;>
  · refine ⟨?_, ?_⟩ <;>
    · first | unfold State.plannerSound | unfold State.shaped
      decide +kernel
theorem witness_EnrolStartsAfreshOrIsRefused_planner :
    (latched (posted 1 [] closed)).orderReady 0 1 ∧ (latched (posted 1 [] closed)).ring.state = .closed ∧
      (latched (posted 1 [] closed)).numbersSound := by
  refine ⟨orderReady_of_isReady (by decide), rfl, ?_⟩
  unfold State.numbersSound
  decide
theorem witness_EveryStepConservesTags : busy.tagsConserved := by
  unfold State.tagsConserved
  decide +kernel
theorem witness_EveryStepKeepsOrdersOwned : busy.numbersSound ∧ busy.ordersOwned :=
  ⟨witness_EveryStepKeepsStateSound.2.2, ordersOwned_of_isOwned (by decide)⟩

theorem witness_EveryStepKeepsRingSound : busy.ringSound := by
  unfold State.ringSound
  decide

/-- A CTRL write changes the mask, a reset the interval, the tick the clock. -/
theorem witness_SettingsChangeOnlyByTheirCommands :
    (Instr.ctrlMaskWrite 1).wellFormed = true ∧ exec (.ctrlMaskWrite 1) idle = .next { idle with mask := 1 } := ⟨rfl, rfl⟩

end Sys2Proof.Tests
end

section
/-! What a quick order does: the head of the intake queue is taken and completed in one step (R167, R170), and the image is
brought up to it. -/

namespace Sys2Proof.Machine

/-! ## The image -/

/-- A step that leaves what the tables show, and in which nothing was handled, does not touch the image. -/
theorem State.refresh_of_shown_eq {old s : State} (hs : s.shown = old.shown) (he : s.events = old.events) :
    State.refresh old s = s := by
  have hupdates : State.imageUpdates old s =
      Writer.all.map fun w => { writer := w, force := .none, before := old.shown, after := old.shown } := by
    simp [State.imageUpdates, hs, he, Writer.all, imageUpdatesFrom, lastShown]
  unfold State.refresh
  rw [hupdates, ← he]
  split
  · rfl
  · simp [Writer.all, State.updateTables_same]

/-- No byte of an order slot and no completion flag lies in the image (R182). -/
theorem not_imagePlace_of_slotPlace {slot a : Nat} (hlt : slot < 64) (ha : slotPlace slot a) : ¬imagePlace a := by
  simp only [slotPlace, imagePlace, slotAt, flagAt] at *
  omega

/-- Bringing up the image leaves a completed order as it was completed. -/
theorem slotDoneWith.refresh {s u : State} {slot : Nat} {o : OrderOutcome} {clamped : Bool} {count : Nat}
    {body : List Byte} (h : slotDoneWith s u slot o clamped count body) (old : State) (hlt : slot < 64)
    (hwf : Memory.wf u.mem = true) : slotDoneWith s (State.refresh old u) slot o clamped count body := by
  obtain ⟨hintake, hactive, hattn, hflag, hslot⟩ := h
  have hframe := State.refresh_frame old u
  have hbyte (a : Nat) (ha : slotPlace slot a) : (State.refresh old u).readByte a = u.readByte a :=
    (State.refresh_mem old u hwf).2 a (not_imagePlace_of_slotPlace hlt ha)
  refine ⟨?_, ?_, ?_, ?_, ?_⟩
  · rw [hframe]; exact hintake
  · rw [hframe]; exact hactive
  · rw [hframe]; exact hattn
  · rw [hbyte _ (.inr rfl), hflag]
  · rw [← hslot]
    exact State.readBytes_congr u _ _ 64 fun i hi => hbyte _ (.inl (by omega))

/-! ## The taking and the completion in one step -/

/-- The step for the row of an order that stands ready. -/
theorem State.orderStep_ready {s : State} {slot code : Nat} (h : s.orderReady slot code)
    (run : Nat → List Byte → State → State) :
    s.orderStep code run = .next (State.refresh s (run slot (s.orderBody slot) (s.takeHead slot))) := by
  rw [State.orderStep, State.takeOrder_ready slot code run s h]

section
variable {s : State} {slot : Nat} (h : s.posted slot) (o : OrderOutcome) (clamped : Bool) (count : Nat) (body : List Byte)
include h

/-- A head that is taken and completed changes the window, the intake queue and ORDER DONE, and nothing else. -/
theorem State.takeHead_complete_frame :
    (s.takeHead slot).complete slot o clamped count body = { s with
      mem := ((s.takeHead slot).complete slot o clamped count body).mem, intake := s.intake.tail,
      attn := s.attn ||| 1 } := by
  obtain ⟨_, _, _, hinactive, _⟩ := h
  have hactive := State.takeHead_active slot s hinactive
  have hleft : (s.takeHead slot).active.filter (fun y => y.slot != slot) = s.active := by
    have hkept : s.active.filter (fun y => y.slot != slot) = s.active :=
      List.filter_eq_self.mpr fun y hy => by simpa using List.find?_eq_none.mp hinactive y hy
    rw [State.takeHead_eq, List.filter_append, hkept]
    simp
  rcases State.complete_cases slot o clamped count body (s.takeHead slot) with ⟨hnone, _⟩ | ⟨x, _, heq⟩
  · rw [hnone] at hactive; cases hactive
  · rw [heq, hleft]; rfl

/-- A head that is taken and completed leaves a canonical window, in which only its slot and flag have changed. -/
theorem State.takeHead_complete_mem :
    Memory.wf ((s.takeHead slot).complete slot o clamped count body).mem = true ∧
      ∀ a, ¬slotPlace slot a → ((s.takeHead slot).complete slot o clamped count body).readByte a = s.readByte a := by
  obtain ⟨_, _, _, _, hwf⟩ := h
  have htaken := State.takeHead_wf slot s hwf
  refine ⟨State.complete_wf _ _ _ _ _ _ htaken, fun a ha => ?_⟩
  rw [State.complete_mem slot o clamped count body (s.takeHead slot) htaken a ha]
  exact State.takeHead_mem slot s hwf a (fun e => ha (.inl (by omega))) fun e => ha (.inr e)

/-- A head that is taken and completed stands completed in its slot. -/
theorem State.takeHead_complete_done :
    slotDoneWith s ((s.takeHead slot).complete slot o clamped count body) slot o clamped count body := by
  have hframe := State.takeHead_complete_frame h o clamped count body
  obtain ⟨_, hlt, _, hinactive, hwf⟩ := h
  obtain ⟨hslot, hflag⟩ := State.complete_slot slot o clamped count body (s.takeHead slot) _
    (State.takeHead_active slot s hinactive) (State.takeHead_wf slot s hwf) hlt
  refine ⟨?_, State.complete_inactive .., ?_, hflag, hslot⟩
  · rw [hframe]
  · rw [hframe]; simp

/-- A head that is taken and completed at once, with no effect besides, is a refused order (R168). -/
theorem State.refresh_takeHead_complete_refused :
    orderRefusedCounting s (State.refresh s ((s.takeHead slot).complete slot o false count [])) slot o count := by
  have hframe := State.takeHead_complete_frame h o false count []
  rw [State.refresh_of_shown_eq (by rw [hframe]; rfl) (by rw [hframe])]
  exact ⟨State.takeHead_complete_done h o false count [], (State.takeHead_complete_mem h o false count []).2, hframe⟩

end

end Sys2Proof.Machine
end

section
/-! CLEAR COUNTS (R43). -/

namespace Sys2Proof.Machine

theorem exec_clearCounts (s : State) : exec .clearCounts s = s.orderStep 0x04 State.clearCountsOrder := rfl

/-- A completion neither reads nor changes the station table. -/
theorem State.complete_withStations (l : List Station) (slot : Nat) (o : OrderOutcome) (clamped : Bool) (count : Nat)
    (body : List Byte) (s : State) :
    State.complete slot o clamped count body { s with stations := l } =
      { s.complete slot o clamped count body with stations := l } := by
  have hactive : State.activeOrder { s with stations := l } slot = s.activeOrder slot := rfl
  unfold State.complete
  rw [hactive]
  cases s.activeOrder slot <;> rfl

/-- The completion of an order is no matter of the station table. -/
theorem slotDoneWith.withStations {s u : State} {slot : Nat} {o : OrderOutcome} {clamped : Bool} {count : Nat}
    {body : List Byte} (h : slotDoneWith s u slot o clamped count body) (l : List Station) :
    slotDoneWith s { u with stations := l } slot o clamped count body := h

/-- The station table once CLEAR COUNTS has named this address, or every station by 0. -/
def countsCleared (st : Nat) (l : List Station) : List Station :=
  if st = 0 then l.map Station.clearCounts else l.modify (st - 1) Station.clearCounts

/-- An address without a record is refused. -/
theorem State.clearCountsOrder_noStation (slot : Nat) (body : List Byte) (s : State) (hst : u8 body 0 ≠ 0)
    (hnone : s.station (u8 body 0) = none) :
    s.clearCountsOrder slot body = s.complete slot .noSuchUnit false 0 [] := by
  simp [State.clearCountsOrder, hst, hnone, State.completeBare, OrderOutcome.emptyCount]

/-- An enrolled address, or 0, clears the counts and completes the order. -/
theorem State.clearCountsOrder_clears (slot : Nat) (body : List Byte) (s : State)
    (hst : u8 body 0 = 0 ∨ (s.station (u8 body 0)).isSome = true) :
    s.clearCountsOrder slot body =
      { s.complete slot .ok false 0 [] with stations := countsCleared (u8 body 0) s.stations } := by
  by_cases hzero : u8 body 0 = 0
  · simp only [State.clearCountsOrder, countsCleared, if_pos hzero, State.complete_withStations]
  · have hsome := hst.resolve_left hzero
    simp only [State.clearCountsOrder, countsCleared, State.modStation, if_neg hzero, if_pos hsome,
      State.complete_withStations]

/-- Settles O11: the order is taken and completed as every quick order is, and what it does besides is one change of the
station table; only the image follows that. -/
theorem clearCountsZeroesCounts : Obligations.ClearCountsZeroesCounts := by
  intro s slot hready
  have ⟨hposted, _⟩ := hready
  have ⟨_, hlt, _⟩ := hposted
  refine ⟨_, (exec_clearCounts s).trans (State.orderStep_ready hready _), fun hst hnone => ?_, fun hst => ?_⟩
  · rw [State.clearCountsOrder_noStation slot _ (s.takeHead slot) hst hnone]
    exact State.refresh_takeHead_complete_refused hposted .noSuchUnit 0
  · rw [State.clearCountsOrder_clears slot _ (s.takeHead slot) hst]
    have hframe := State.takeHead_complete_frame hposted .ok false 0 []
    have hdone := State.takeHead_complete_done hposted .ok false 0 []
    obtain ⟨hwf, hkept⟩ := State.takeHead_complete_mem hposted .ok false 0 []
    refine ⟨(hdone.withStations _).refresh s hlt hwf, fun a hslot himage => ?_, ?_⟩
    · refine ((State.refresh_mem s _ ?_).2 a himage).trans (hkept a hslot)
      exact hwf
    · rw [State.refresh_frame, hframe]
      rfl

end Sys2Proof.Machine
end

section
/-! What the fan sequencer and the start arbiter do on a grant depends on the clock, the ring, the stations, the fans and the
feeders alone (R104, R125 to R127), not on the window, the journal or the orders. -/

namespace Sys2Proof.Machine

/-! ## States that the fan sequencer and the arbiter cannot tell apart -/

/-- The two states agree in everything that a grant and the fan's answer to it read. -/
structure FansAlike (s t : State) : Prop where
  clock : t.clock = s.clock
  ring : t.ring = s.ring
  stations : t.stations = s.stations
  fans : t.fans = s.fans
  feeders : t.feeders = s.feeders

namespace FansAlike

theorem refl (s : State) : FansAlike s s := ⟨rfl, rfl, rfl, rfl, rfl⟩

theorem symm {s t : State} (h : FansAlike s t) : FansAlike t s :=
  ⟨h.clock.symm, h.ring.symm, h.stations.symm, h.fans.symm, h.feeders.symm⟩

theorem trans {s t u : State} (h : FansAlike s t) (g : FansAlike t u) : FansAlike s u :=
  ⟨g.clock.trans h.clock, g.ring.trans h.ring, g.stations.trans h.stations, g.fans.trans h.fans,
    g.feeders.trans h.feeders⟩

/-- States that are alike stay so under an operation that leaves all of this as it is. -/
theorem beside {s t s' t' : State} (h : FansAlike s t) (hs : FansAlike s s') (ht : FansAlike t t') : FansAlike s' t' :=
  (hs.symm.trans h).trans ht

/-! ### Operations that leave all of this as it is -/

theorem journal (k : EventKind) (subject d1 d2 : Nat) (s : State) : FansAlike s (s.journal k subject d1 d2) := by
  have hframe := (State.journal_journals k subject d1 d2 s).frame
  constructor <;> rw [hframe]

theorem journalFan (f before : Nat) (s : State) : FansAlike s (s.journalFan f before) := by
  unfold State.journalFan
  split
  · exact refl s
  · split
    · exact journal ..
    · exact refl s

theorem setWork (slot : Nat) (w : Work) (s : State) : FansAlike s (s.setWork slot w) := ⟨rfl, rfl, rfl, rfl, rfl⟩

theorem complete (slot : Nat) (o : OrderOutcome) (clamped : Bool) (count : Nat) (body : List Byte) (s : State) :
    FansAlike s (s.complete slot o clamped count body) := by
  rcases State.complete_cases slot o clamped count body s with ⟨_, he⟩ | ⟨x, _, he⟩
  · rw [he]; exact refl s
  · rw [he]; exact ⟨rfl, rfl, rfl, rfl, rfl⟩

theorem completeParts (slot : Nat) (s : State) : FansAlike s (s.completeParts slot) := by
  unfold State.completeParts
  split
  · exact refl s
  · split
    · split
      · exact complete ..
      · exact refl s
    · exact refl s

theorem partOutcome (slot f : Nat) (out : OrderOutcome) (s : State) : FansAlike s (s.partOutcome slot f out) := by
  unfold State.partOutcome
  split
  · exact refl s
  · split
    · exact (setWork ..).trans (completeParts ..)
    · exact refl s

theorem handledAs (force : Force) (w : Writer) (s : State) : FansAlike s (s.handledAs force w) :=
  ⟨rfl, rfl, rfl, rfl, rfl⟩

theorem takeHead (slot : Nat) (s : State) : FansAlike s (s.takeHead slot) := ⟨rfl, rfl, rfl, rfl, rfl⟩

theorem refresh (old s : State) : FansAlike s (State.refresh old s) := by
  rw [State.refresh_frame]
  exact ⟨rfl, rfl, rfl, rfl, rfl⟩

/-! ### Operations that keep states alike -/

section
variable {s t : State} (h : FansAlike s t)
include h

theorem fan_eq (f : Nat) : t.fan f = s.fan f := by unfold State.fan; rw [h.fans]

theorem feeder_eq (k : Nat) : t.feeder k = s.feeder k := by unfold State.feeder; rw [h.feeders]

theorem reachable_eq (st : Nat) : t.reachable st = s.reachable st := by
  unfold State.reachable State.station; rw [h.stations]

theorem entry_eq (st : Nat) : t.entry st = s.entry st := by unfold State.entry; rw [h.ring]

theorem modFan (f : Nat) (g : Fan → Fan) : FansAlike (s.modFan f g) (t.modFan f g) :=
  ⟨h.clock, h.ring, h.stations, congrArg (List.modify · f (Option.map g)) h.fans, h.feeders⟩

theorem modFeeder (k : Nat) (g : Feeder → Feeder) : FansAlike (s.modFeeder k g) (t.modFeeder k g) :=
  ⟨h.clock, h.ring, h.stations, h.fans, congrArg (List.modify · k g) h.feeders⟩

theorem modRing (g : Ring → Ring) : FansAlike (s.modRing g) (t.modRing g) :=
  ⟨h.clock, congrArg g h.ring, h.stations, h.fans, h.feeders⟩

theorem modEntry (st : Nat) (g : RingEntry → RingEntry) : FansAlike (s.modEntry st g) (t.modEntry st g) := by
  unfold State.modEntry
  split
  · exact h
  · exact h.modRing _

theorem handled (w : Writer) : FansAlike (s.handled w) (t.handled w) := h.beside (handledAs ..) (handledAs ..)

theorem enterFan (f : Nat) (st : FanState) : FansAlike (s.enterFan f st) (t.enterFan f st) := by
  unfold State.enterFan
  rw [h.fan_eq f]
  split
  · exact h
  · split
    · exact h
    · exact (h.modFan f _).beside (journalFan ..) (journalFan ..)

theorem endPart (f : Nat) (out : OrderOutcome) : FansAlike (s.endPart f out) (t.endPart f out) := by
  unfold State.endPart
  rw [h.fan_eq f]
  split
  · exact h
  · split
    · exact h
    · exact ((h.modFan f _).modRing _).beside (partOutcome ..) (partOutcome ..)

theorem dropSlot (f : Nat) : FansAlike (s.dropSlot f) (t.dropSlot f) := by
  unfold State.dropSlot
  rw [h.fan_eq f]
  split
  · exact h
  · exact (h.modFan f _).modFeeder _ _

theorem withdraw (f : Nat) : FansAlike (s.withdraw f) (t.withdraw f) := by
  unfold State.withdraw
  rw [h.fan_eq f]
  split
  · exact h
  · rw [h.feeder_eq]
    dsimp only
    split
    · exact (h.modFeeder _ _).handled _
    · exact h

theorem fanLostBare (f : Nat) : FansAlike (s.fanLostBare f) (t.fanLostBare f) := by
  unfold State.fanLostBare
  rw [h.fan_eq f]
  split
  · exact h
  · split
    · exact h
    · refine ((FansAlike.modFan ?_ f _).endPart f _).enterFan f _
      split
      · exact (h.dropSlot f).handled _
      · exact h.withdraw f

theorem offer (st : Nat) (q : QFrame) :
    (t.offer st q).1 = (s.offer st q).1 ∧ FansAlike (s.offer st q).2 (t.offer st q).2 := by
  unfold State.offer
  rw [h.reachable_eq, h.entry_eq]
  split
  · exact ⟨rfl, h⟩
  · split
    · exact ⟨rfl, h⟩
    · exact ⟨rfl, (h.modEntry st _).handled _⟩

theorem offerStep (st fan : Nat) (q : QFrame) (replacement : Bool) :
    (t.offerStep st fan q replacement).1 = (s.offerStep st fan q replacement).1 ∧
      FansAlike (s.offerStep st fan q replacement).2 (t.offerStep st fan q replacement).2 := by
  unfold State.offerStep
  rw [h.reachable_eq, h.entry_eq]
  split
  · exact ⟨rfl, h⟩
  · split
    · exact ⟨rfl, h.modEntry st _⟩
    · split
      · exact ⟨rfl, h⟩
      · exact h.offer st q

theorem compareFan (f : Nat) : FansAlike (s.compareFan f) (t.compareFan f) := by
  unfold State.compareFan
  rw [h.fan_eq f]
  split
  · exact h
  · next r _ =>
    split
    · exact h
    · obtain ⟨hanswer, hstate⟩ := h.offerStep r.station f (r.stepFrameFor f) (r.stepFrame == .queued)
      generalize s.offerStep r.station f (r.stepFrameFor f) (r.stepFrame == .queued) = x at hanswer hstate
      generalize t.offerStep r.station f (r.stepFrameFor f) (r.stepFrame == .queued) = y at hanswer hstate
      obtain ⟨a, u⟩ := x
      obtain ⟨b, v⟩ := y
      obtain rfl : b = a := hanswer
      have hstate : FansAlike u v := hstate
      cases b with
      | accepted => exact hstate.modFan f _
      | placed => exact hstate.modFan f _
      | full => exact hstate
      | unreachable => exact hstate.fanLostBare f

theorem takeGrant (f : Nat) : FansAlike (s.takeGrant f) (t.takeGrant f) := by
  unfold State.takeGrant
  rw [h.fan_eq f, h.clock]
  split
  · exact h
  · split
    · exact (h.modFan f _).compareFan f
    · exact h.modFeeder _ _

end

theorem grantLoop (n k : Nat) {s t : State} (h : FansAlike s t) :
    FansAlike (State.grantLoop n k s) (State.grantLoop n k t) := by
  induction n generalizing s t with
  | zero => exact h
  | succ n ih =>
    unfold State.grantLoop
    rw [h.feeder_eq]
    split
    · split
      · exact h
      · exact ih ((h.modFeeder k _).takeGrant _)
    · exact h

/-- The grants make the same of the fans and the feeders in states that are alike. -/
theorem grants (k : Nat) {s t : State} (h : FansAlike s t) : FansAlike (s.grants k) (t.grants k) := by
  unfold State.grants
  rw [h.feeder_eq]
  exact (h.grantLoop _ k).handled _

end FansAlike

end Sys2Proof.Machine
end

section
/-! What the grants of a feeder can do (R125 to R127): they end no order but those of fan parts, they make grants until the
allowance is reached or nobody waits, and they leave the waiting lists of the other feeders. -/

namespace Sys2Proof.Machine

/-! ## Records by number after an update -/

theorem State.fan_modFan (f : Nat) (g : Fan → Fan) (s : State) : (s.modFan f g).fan f = (s.fan f).map g := by
  simp only [State.fan, State.modFan_fans, List.getD_eq_getElem?_getD, List.getElem?_modify]
  cases s.fans[f]? <;> simp

theorem State.feeder_modFeeder {k : Nat} {s : State} (hk : k < s.feeders.length) (g : Feeder → Feeder) :
    (s.modFeeder k g).feeder k = g (s.feeder k) := by
  simp [State.feeder, List.getD_eq_getElem?_getD, hk]

theorem State.feeder_modFeeder_of_ne {k m : Nat} (h : m ≠ k) (g : Feeder → Feeder) (s : State) :
    (s.modFeeder k g).feeder m = s.feeder m := by
  simp [State.feeder, List.getD_eq_getElem?_getD, h.symm]

theorem State.modFeeder_of_le {k : Nat} {s : State} (hk : s.feeders.length ≤ k) (g : Feeder → Feeder) :
    s.modFeeder k g = s := by
  unfold State.modFeeder
  rw [List.modify_eq_self hk]

/-! ## Feeders -/

/-- Fans of the feeder may have left its energizing set; with no allowance pending that is all that has changed. -/
structure Feeder.Freed (a b : Feeder) : Prop where
  class1 : b.class1 = a.class1
  class0 : b.class0 = a.class0
  energizing : b.energizing.length ≤ a.energizing.length
  allowance : a.pendingLow = none → b.pendingLow = none ∧ b.allowance = a.allowance

theorem Feeder.Freed.refl (a : Feeder) : a.Freed a := ⟨rfl, rfl, le_rfl, fun h => ⟨h, rfl⟩⟩

theorem Feeder.Freed.trans {a b c : Feeder} (h : a.Freed b) (g : b.Freed c) : a.Freed c where
  class1 := g.class1.trans h.class1
  class0 := g.class0.trans h.class0
  energizing := g.energizing.trans h.energizing
  allowance ha :=
    have ⟨hb, hab⟩ := h.allowance ha
    have ⟨hc, hbc⟩ := g.allowance hb
    ⟨hc, hbc.trans hab⟩

/-- A fan that leaves the energizing set frees its slot (R127, R132). -/
theorem Feeder.settlePending_erase_freed (f : Nat) (a : Feeder) :
    a.Freed (Feeder.settlePending { a with energizing := a.energizing.erase f }) := by
  have hlen : (a.energizing.erase f).length ≤ a.energizing.length := List.length_erase_le
  unfold Feeder.settlePending
  split
  · exact ⟨rfl, rfl, hlen, fun h => ⟨h, rfl⟩⟩
  · next hpend =>
    have hpending (h : a.pendingLow = none) : False := by rw [h] at hpend; cases hpend
    split
    · exact ⟨rfl, rfl, hlen, fun h => (hpending h).elim⟩
    · exact ⟨rfl, rfl, hlen, fun h => (hpending h).elim⟩

/-- The allowance in force is `v`, none is pending, and the energizing set keeps to it. -/
def Feeder.keepsTo (v : Nat) (a : Feeder) : Prop :=
  a.allowance = v ∧ a.pendingLow = none ∧ a.energizing.length ≤ v

theorem Feeder.keepsTo.freed {v : Nat} {a b : Feeder} (h : a.keepsTo v) (hab : a.Freed b) : b.keepsTo v := by
  obtain ⟨hallow, hpend, hlen⟩ := h
  obtain ⟨hpend', hallow'⟩ := hab.allowance hpend
  exact ⟨hallow'.trans hallow, hpend', hab.energizing.trans hlen⟩

theorem Feeder.mayGrant_iff {v : Nat} {a : Feeder} (h : a.keepsTo v) : a.mayGrant = true ↔ a.energizing.length < v := by
  obtain ⟨rfl, hpend, _⟩ := h
  simp [Feeder.mayGrant, hpend]

theorem Feeder.keepsTo.enterEnergizing {v : Nat} {a : Feeder} (h : a.keepsTo v) (hmay : a.mayGrant = true) (f : Nat) :
    (a.enterEnergizing f).keepsTo v := by
  have hlt := (Feeder.mayGrant_iff h).mp hmay
  obtain ⟨hallow, hpend, _⟩ := h
  refine ⟨hallow, hpend, ?_⟩
  simp only [Feeder.enterEnergizing, List.length_append, List.length_singleton]
  omega

/-- The fan whose turn it is waits, and a grant takes it from the lists. -/
theorem Feeder.enterEnergizing_waiting_lt {a : Feeder} {f : Nat} (h : a.next = some f) :
    (a.enterEnergizing f).waiting.length < a.waiting.length := by
  have hmem : f ∈ a.class1 ∨ f ∈ a.class0 := List.mem_append.mp (List.mem_of_mem_head? h)
  have hle1 : (a.class1.erase f).length ≤ a.class1.length := List.length_erase_le
  have hle0 : (a.class0.erase f).length ≤ a.class0.length := List.length_erase_le
  simp only [Feeder.enterEnergizing, Feeder.waiting, List.length_append]
  rcases hmem with hmem | hmem
  · have := List.length_erase_of_mem hmem
    have := List.length_pos_of_mem hmem
    omega
  · have := List.length_erase_of_mem hmem
    have := List.length_pos_of_mem hmem
    omega

/-! ## Orders of other slots -/

theorem State.setWork_activeOrder_of_ne {slot k : Nat} (h : k ≠ slot) (w : Work) (s : State) :
    (s.setWork slot w).activeOrder k = s.activeOrder k := by
  have hslot (o : ActiveOrder) : (if o.slot = slot then { o with work := w } else o).slot = o.slot := by split <;> rfl
  simp only [State.activeOrder, State.setWork_active, List.find?_map, Function.comp_def, hslot]
  cases hfound : s.active.find? fun o => o.slot == k with
  | none => rfl
  | some o =>
    have ho : o.slot = k := by simpa using List.find?_some hfound
    simp [ho, h]

theorem State.complete_activeOrder_of_ne {slot k : Nat} (h : k ≠ slot) (o : OrderOutcome) (clamped : Bool) (count : Nat)
    (body : List Byte) (s : State) : (s.complete slot o clamped count body).activeOrder k = s.activeOrder k := by
  rcases State.complete_cases slot o clamped count body s with ⟨_, he⟩ | ⟨x, _, he⟩
  · rw [he]
  · rw [he]
    simp only [State.activeOrder, List.find?_filter]
    congr 1
    funext y
    by_cases hy : y.slot = k <;> simp [hy, h]

theorem State.completeParts_activeOrder_of_ne {slot k : Nat} (h : k ≠ slot) (s : State) :
    (s.completeParts slot).activeOrder k = s.activeOrder k := by
  unfold State.completeParts
  split
  · rfl
  · split
    · split
      · exact State.complete_activeOrder_of_ne h ..
      · rfl
    · rfl

/-! ## What a fan's answer to a grant does besides -/

/-- Orders carried out at once stand in the active set as they did, and of the feeders nothing has changed but that slots
have been freed. -/
structure FreesSlots (s t : State) : Prop where
  quick : ∀ slot o, s.activeOrder slot = some o → o.work = .quick → t.activeOrder slot = some o
  feeder : ∀ m, (s.feeder m).Freed (t.feeder m)

namespace FreesSlots

theorem of_eq {s t : State} (ha : t.active = s.active) (hf : t.feeders = s.feeders) : FreesSlots s t where
  quick slot o h _ := by unfold State.activeOrder at *; rw [ha]; exact h
  feeder m := by unfold State.feeder; rw [hf]; exact .refl _

theorem refl (s : State) : FreesSlots s s := of_eq rfl rfl

theorem trans {s t u : State} (h : FreesSlots s t) (g : FreesSlots t u) : FreesSlots s u where
  quick slot o hs hq := g.quick slot o (h.quick slot o hs hq) hq
  feeder m := (h.feeder m).trans (g.feeder m)

theorem freeSlot (k f : Nat) (s : State) :
    FreesSlots s (s.modFeeder k fun a => Feeder.settlePending { a with energizing := a.energizing.erase f }) where
  quick _ _ h _ := h
  feeder m := by
    by_cases hm : m = k
    · subst hm
      by_cases hlen : m < s.feeders.length
      · rw [State.feeder_modFeeder hlen]; exact Feeder.settlePending_erase_freed f _
      · rw [State.modFeeder_of_le (Nat.le_of_not_lt hlen)]; exact .refl _
    · rw [State.feeder_modFeeder_of_ne hm]; exact .refl _

theorem journal (k : EventKind) (subject d1 d2 : Nat) (s : State) : FreesSlots s (s.journal k subject d1 d2) := by
  have hframe := (State.journal_journals k subject d1 d2 s).frame
  exact of_eq (by rw [hframe]) (by rw [hframe])

theorem modFan (f : Nat) (g : Fan → Fan) (s : State) : FreesSlots s (s.modFan f g) := of_eq rfl rfl

theorem orphanReset (f : Nat) (s : State) : FreesSlots s (s.orphanReset f) := of_eq rfl rfl

theorem journalFan (f before : Nat) (s : State) : FreesSlots s (s.journalFan f before) := by
  unfold State.journalFan
  split
  · exact refl s
  · split
    · exact journal ..
    · exact refl s

theorem enterFan (f : Nat) (st : FanState) (s : State) : FreesSlots s (s.enterFan f st) := by
  unfold State.enterFan
  split
  · exact refl s
  · split
    · exact refl s
    · exact (modFan ..).trans (journalFan ..)

/-- Of an order with parts both the work and the completion concern another order than one carried out at once. -/
theorem partOutcome (slot f : Nat) (out : OrderOutcome) (s : State) : FreesSlots s (s.partOutcome slot f out) where
  feeder m := by rw [(FansAlike.partOutcome slot f out s).feeder_eq m]; exact .refl _
  quick slot' o hactive hquick := by
    unfold State.partOutcome
    split
    · exact hactive
    · next x hx =>
      split
      · next parts clamped hwork =>
        have hne : slot' ≠ slot := by
          rintro rfl
          rw [hactive] at hx
          cases hx
          rw [hquick] at hwork
          cases hwork
        rw [State.completeParts_activeOrder_of_ne hne, State.setWork_activeOrder_of_ne hne]
        exact hactive
      · exact hactive

theorem endPart (f : Nat) (out : OrderOutcome) (s : State) : FreesSlots s (s.endPart f out) := by
  unfold State.endPart
  split
  · exact refl s
  · split
    · exact refl s
    · exact (modFan ..).trans ((orphanReset ..).trans (partOutcome ..))

theorem dropSlot (f : Nat) (s : State) : FreesSlots s (s.dropSlot f) := by
  unfold State.dropSlot
  split
  · exact refl s
  · exact (modFan ..).trans (freeSlot ..)

/-- A fan that holds a slot and is lost gives it back; it stands in no waiting list. -/
theorem fanLostBare {f : Nat} {s : State} (h : ∀ r, s.fan f = some r → r.slotHeld = true) :
    FreesSlots s (s.fanLostBare f) := by
  unfold State.fanLostBare
  split
  · exact refl s
  · next r hr =>
    split
    · exact refl s
    · rw [if_pos (h r hr)]
      have hdrop : FreesSlots s ((s.dropSlot f).handled .feeders) := (dropSlot f s).trans (of_eq rfl rfl)
      exact hdrop.trans ((modFan ..).trans ((endPart ..).trans (enterFan ..)))

end FreesSlots

theorem State.offer_active_fans_feeders (st : Nat) (q : QFrame) (s : State) :
    (s.offer st q).2.active = s.active ∧ (s.offer st q).2.fans = s.fans ∧ (s.offer st q).2.feeders = s.feeders := by
  unfold State.offer
  split
  · exact ⟨rfl, rfl, rfl⟩
  · split
    · exact ⟨rfl, rfl, rfl⟩
    · simp

/-- An offer concerns the ring and the record of the events only. -/
theorem State.offerStep_active_fans_feeders (st f : Nat) (q : QFrame) (replacement : Bool) (s : State) :
    (s.offerStep st f q replacement).2.active = s.active ∧ (s.offerStep st f q replacement).2.fans = s.fans ∧
      (s.offerStep st f q replacement).2.feeders = s.feeders := by
  unfold State.offerStep
  split
  · exact ⟨rfl, rfl, rfl⟩
  · split
    · simp
    · split
      · exact ⟨rfl, rfl, rfl⟩
      · exact State.offer_active_fans_feeders ..

namespace FreesSlots

theorem compareFan {f : Nat} {s : State} (h : ∀ r, s.fan f = some r → r.slotHeld = true) :
    FreesSlots s (s.compareFan f) := by
  unfold State.compareFan
  split
  · exact refl s
  · next r _ =>
    split
    · exact refl s
    · obtain ⟨hactive, hfans, hfeeders⟩ :=
        State.offerStep_active_fans_feeders r.station f (r.stepFrameFor f) (r.stepFrame == .queued) s
      generalize s.offerStep r.station f (r.stepFrameFor f) (r.stepFrame == .queued) = x at hactive hfans hfeeders
      obtain ⟨a, u⟩ := x
      have hu : FreesSlots s u := of_eq hactive hfeeders
      cases a with
      | accepted => exact hu.trans (modFan ..)
      | placed => exact hu.trans (modFan ..)
      | full => exact hu
      | unreachable =>
        refine hu.trans (fanLostBare fun r hr => h r ?_)
        unfold State.fan at *
        rw [← hfans]
        exact hr

/-- A fan that keeps the slot may lose it with its station, and one that does not keep it gives it back. -/
theorem takeGrant (f : Nat) (s : State) : FreesSlots s (s.takeGrant f) := by
  unfold State.takeGrant
  split
  · exact refl s
  · next r hr =>
    split
    · refine (modFan ..).trans (compareFan fun r' hr' => ?_)
      rw [State.fan_modFan, hr] at hr'
      cases hr'
      rfl
    · exact freeSlot ..

end FreesSlots

/-! ## The grants of a moment -/

/-- What the grants of feeder `k` keep: the waiting lists of the other feeders, and the orders that are carried out at once. -/
structure GrantsOn (k : Nat) (s t : State) : Prop where
  quick : ∀ slot o, s.activeOrder slot = some o → o.work = .quick → t.activeOrder slot = some o
  others : ∀ m, m ≠ k → (t.feeder m).class1 = (s.feeder m).class1 ∧ (t.feeder m).class0 = (s.feeder m).class0

theorem GrantsOn.refl (k : Nat) (s : State) : GrantsOn k s s := ⟨fun _ _ h _ => h, fun _ _ => ⟨rfl, rfl⟩⟩

theorem GrantsOn.trans {k : Nat} {s t u : State} (h : GrantsOn k s t) (g : GrantsOn k t u) : GrantsOn k s u where
  quick slot o hs hq := g.quick slot o (h.quick slot o hs hq) hq
  others m hm :=
    have ⟨h1, h0⟩ := h.others m hm
    have ⟨g1, g0⟩ := g.others m hm
    ⟨g1.trans h1, g0.trans h0⟩

theorem GrantsOn.modFeeder (k : Nat) (g : Feeder → Feeder) (s : State) : GrantsOn k s (s.modFeeder k g) where
  quick _ _ h _ := h
  others m hm := by rw [State.feeder_modFeeder_of_ne hm]; exact ⟨rfl, rfl⟩

theorem GrantsOn.takeGrant (k f : Nat) (s : State) : GrantsOn k s (s.takeGrant f) where
  quick := (FreesSlots.takeGrant f s).quick
  others m _ := ⟨((FreesSlots.takeGrant f s).feeder m).class1, ((FreesSlots.takeGrant f s).feeder m).class0⟩

theorem State.grantLoop_grantsOn (n k : Nat) (s : State) : GrantsOn k s (State.grantLoop n k s) := by
  induction n generalizing s with
  | zero => exact .refl k s
  | succ n ih =>
    unfold State.grantLoop
    split
    · split
      · exact .refl k s
      · exact ((GrantsOn.modFeeder ..).trans (GrantsOn.takeGrant ..)).trans (ih _)
    · exact .refl k s

theorem State.grants_grantsOn (k : Nat) (s : State) : GrantsOn k s (s.grants k) :=
  (State.grantLoop_grantsOn _ k s).trans ⟨fun _ _ h _ => h, fun _ _ => ⟨rfl, rfl⟩⟩

/-- A grant and the fan's answer to it keep to the allowance, and one fan fewer waits. -/
theorem State.grant_keepsTo {k f v : Nat} {s : State} (hk : k < s.feeders.length) (h : (s.feeder k).keepsTo v)
    (hmay : (s.feeder k).mayGrant = true) (hnext : (s.feeder k).next = some f) :
    (((s.modFeeder k (Feeder.enterEnergizing f)).takeGrant f).feeder k).keepsTo v ∧
      (((s.modFeeder k (Feeder.enterEnergizing f)).takeGrant f).feeder k).waiting.length <
        (s.feeder k).waiting.length := by
  have hfreed := (FreesSlots.takeGrant f (s.modFeeder k (Feeder.enterEnergizing f))).feeder k
  rw [State.feeder_modFeeder hk] at hfreed
  refine ⟨(h.enterEnergizing hmay f).freed hfreed, ?_⟩
  have hlt := Feeder.enterEnergizing_waiting_lt hnext
  unfold Feeder.waiting at *
  rw [hfreed.class1, hfreed.class0]
  exact hlt

/-- With a turn for each waiting fan the grants end at the allowance or with nobody waiting (R125). -/
theorem State.grantLoop_feeder {n k v : Nat} {s : State} (hk : k < s.feeders.length) (h : (s.feeder k).keepsTo v)
    (hn : (s.feeder k).waiting.length ≤ n) :
    ((State.grantLoop n k s).feeder k).keepsTo v ∧
      (((State.grantLoop n k s).feeder k).energizing.length = v ∨ ((State.grantLoop n k s).feeder k).waiting = []) := by
  induction n generalizing s with
  | zero => exact ⟨h, .inr (List.eq_nil_of_length_eq_zero (Nat.le_zero.mp hn))⟩
  | succ n ih =>
    unfold State.grantLoop
    split
    · next hmay =>
      split
      · next hnone => exact ⟨h, .inr (List.head?_eq_none_iff.mp hnone)⟩
      · next f hnext =>
        obtain ⟨hkeeps, hlt⟩ := State.grant_keepsTo hk h hmay hnext
        refine ih ?_ hkeeps (by omega)
        rw [(State.takeGrant_reacts f _).feeders, (State.modFeeder_reacts k _ s).feeders]
        exact hk
    · next hfull =>
      have hfull := mt (Feeder.mayGrant_iff h).mpr hfull
      have ⟨_, _, hle⟩ := h
      exact ⟨h, .inl (by omega)⟩

theorem State.grants_feeder {k v : Nat} {s : State} (hk : k < s.feeders.length) (h : (s.feeder k).keepsTo v) :
    ((s.grants k).feeder k).keepsTo v ∧
      (((s.grants k).feeder k).energizing.length = v ∨ ((s.grants k).feeder k).waiting = []) :=
  State.grantLoop_feeder hk h (List.length_append ..).le

/-- No grant is made while an allowance is pending (R125, R131). -/
theorem State.grants_of_pending {k p : Nat} {s : State} (h : (s.feeder k).pendingLow = some p) :
    s.grants k = s.handled .feeders := by
  have hmay : (s.feeder k).mayGrant = false := by simp [Feeder.mayGrant, h]
  unfold State.grants
  congr 1
  cases (s.feeder k).class1.length + (s.feeder k).class0.length with
  | zero => rfl
  | succ n => rw [State.grantLoop, if_neg (by rw [hmay]; exact Bool.false_ne_true)]

end Sys2Proof.Machine
end

section
/-! What an order does that brings about reactions of the blocks and is completed in the same step (R167, R170). -/

namespace Sys2Proof.Machine

section
variable {s u : State} {slot : Nat} (h : s.posted slot) (hu : Reacts (s.takeHead slot) u)
include h hu

/-- A head that is taken stands completed in its slot when the reactions to it have left it in the active set. -/
theorem State.complete_done_of_reacts (hactive : u.activeOrder slot = (s.takeHead slot).activeOrder slot)
    (o : OrderOutcome) (clamped : Bool) (count : Nat) (body : List Byte) :
    slotDoneWith s (u.complete slot o clamped count body) slot o clamped count body := by
  obtain ⟨_, hlt, _, hinactive, hwf⟩ := h
  rw [State.takeHead_active slot s hinactive] at hactive
  have hintake : u.intake = s.intake.tail := by rw [hu.frame]; rfl
  have hclock : u.clock = s.clock := by rw [hu.frame]; rfl
  obtain ⟨hslot, hflag⟩ := State.complete_slot slot o clamped count body u _ hactive
    (hu.wf (State.takeHead_wf slot s hwf)) hlt
  rw [hclock] at hslot
  rcases State.complete_cases slot o clamped count body u with ⟨hnone, _⟩ | ⟨x, _, heq⟩
  · rw [hnone] at hactive; cases hactive
  · refine ⟨?_, State.complete_inactive .., ?_, hflag, hslot⟩
    · rw [heq]; exact hintake
    · rw [heq]; simp

/-- What the taking of a head and the reactions to it change in one step. -/
theorem State.refresh_takeHead_reactionFrame : reactionFrame s (State.refresh s u) := by
  obtain ⟨_, hlt, _, _, hwf⟩ := h
  refine ⟨?_, fun ⟨_, hslots, hindex⟩ _ a ha => ?_⟩
  · rw [State.refresh_frame, hu.frame]; rfl
  · have himage : ¬imagePlace a := by unfold imagePlace reactionPlace at *; omega
    have htaken : ∀ k ∈ (s.takeHead slot).active.map (·.slot), k < 64 := by
      intro k hk
      rw [State.takeHead_eq, List.map_append, List.mem_append] at hk
      rcases hk with hk | hk
      · exact hslots k (List.mem_append_right _ hk)
      · rw [List.mem_singleton.mp hk]; exact hlt
    have hwf' := State.takeHead_wf slot s hwf
    calc (State.refresh s u).readByte a
        = u.readByte a := (State.refresh_mem s u (hu.wf hwf')).2 a himage
      _ = (s.takeHead slot).readByte a := hu.mem htaken hindex hwf' a ha
      _ = s.readByte a := State.takeHead_mem slot s hwf a
        (by unfold reactionPlace at ha; unfold slotAt; omega) (by unfold reactionPlace at ha; unfold flagAt; omega)

end

end Sys2Proof.Machine
end

section
/-! SET FEEDER (R131). -/

namespace Sys2Proof.Machine

/-- A completion neither reads nor changes the feeders and the record of the events. -/
theorem State.complete_withFeeders (l : List Feeder) (es : List Handled) (slot : Nat) (o : OrderOutcome) (clamped : Bool)
    (count : Nat) (body : List Byte) (s : State) :
    State.complete slot o clamped count body { s with feeders := l, events := es } =
      { s.complete slot o clamped count body with feeders := l, events := es } := by
  have hactive : State.activeOrder { s with feeders := l, events := es } slot = s.activeOrder slot := rfl
  unfold State.complete
  rw [hactive]
  cases s.activeOrder slot <;> rfl

/-! ## The allowance of a feeder -/

theorem State.modFeeder_eq_set {k : Nat} {s : State} (hk : k < s.feeders.length) (g : Feeder → Feeder) :
    s.modFeeder k g = { s with feeders := s.feeders.set k (g (s.feeder k)) } := by
  unfold State.modFeeder State.feeder
  rw [List.modify_eq_set_getElem?]
  simp [hk, List.getD_eq_getElem?_getD]

theorem Feeder.setAllowance_below {v : Nat} {k : Feeder} (h : v < k.energizing.length) :
    k.setAllowance v = { k with pendingLow := some v } := if_neg (by omega)

theorem Feeder.setAllowance_reached {v : Nat} {k : Feeder} (h : k.energizing.length ≤ v) :
    k.setAllowance v = { k with allowance := v, pendingLow := none } := if_pos h

/-- The part once SET FEEDER has set the allowance of a feeder and the grants that it allows have been made. -/
def State.feederSet (n v : Nat) (s : State) : State := (s.modFeeder n (Feeder.setAllowance v)).grants n

/-- The result of SET FEEDER: the feeder's record (R183). -/
def feederResult (k : Feeder) : List Byte :=
  [byte k.allowance, byte (k.pendingLow.getD 0), byte k.energizing.length, byte (k.class1.length + k.class0.length)]

theorem exec_setFeeder (s : State) : exec .setFeeder s = s.orderStep 0x13 State.setFeederOrder := rfl

theorem exec_setFeeder_noUnit {s : State} {slot : Nat} (hready : s.orderReady slot 0x13)
    (hn : 4 ≤ u8 (s.orderBody slot) 0) :
    exec .setFeeder s = .next (State.refresh s ((s.takeHead slot).complete slot .noSuchUnit false 0 [])) := by
  rw [exec_setFeeder, State.orderStep_ready hready, State.setFeederOrder, if_pos hn]
  rfl

theorem exec_setFeeder_sets {s : State} {slot : Nat} (hready : s.orderReady slot 0x13)
    (hn : u8 (s.orderBody slot) 0 < 4) :
    exec .setFeeder s =
      let n := u8 (s.orderBody slot) 0
      let carried := u8 (s.orderBody slot) 1
      let v := clampNat 1 4 carried
      let u := (s.takeHead slot).feederSet n v
      .next (State.refresh s
        (u.complete slot (if v ≠ carried then .okClamped else .ok) false 1 (feederResult (u.feeder n)))) := by
  rw [exec_setFeeder, State.orderStep_ready hready, State.setFeederOrder, if_neg (Nat.not_le.mpr hn)]
  simp only [okOutcome, bne_iff_ne]
  rfl

theorem State.feederSet_reacts (n v : Nat) (s : State) : Reacts s (s.feederSet n v) :=
  (State.modFeeder_reacts ..).trans (State.grants_reacts ..)

theorem State.feederSet_grantsOn (n v : Nat) (s : State) : GrantsOn n s (s.feederSet n v) :=
  (GrantsOn.modFeeder ..).trans (State.grants_grantsOn ..)

/-- Below the energizing count the allowance is kept pending, and no grant is made. -/
theorem State.feederSet_below {n v : Nat} {s : State} (hn : n < s.feeders.length)
    (h : v < (s.feeder n).energizing.length) :
    ∃ es, s.feederSet n v =
      { s with feeders := s.feeders.set n { s.feeder n with pendingLow := some v }, events := es } := by
  have hset := Feeder.setAllowance_below h
  have hpending : ((s.modFeeder n (Feeder.setAllowance v)).feeder n).pendingLow = some v := by
    rw [State.feeder_modFeeder hn, hset]
  unfold State.feederSet
  rw [State.grants_of_pending hpending, State.modFeeder_eq_set hn, hset]
  exact ⟨_, rfl⟩

theorem FansAlike.feederSet {s t : State} (h : FansAlike s t) (n v : Nat) :
    FansAlike (s.feederSet n v) (t.feederSet n v) := (h.modFeeder n _).grants n

/-- At or above the energizing count the allowance holds at once, and grants are made up to it. -/
theorem State.feederSet_reached {n v : Nat} {s t : State} (hn : n < s.feeders.length)
    (hv : (s.feeder n).energizing.length ≤ v) (ht : FansAlike (s.feederSet n v) t) :
    (t.feeder n).keepsTo v ∧ ((t.feeder n).energizing.length = v ∨ (t.feeder n).waiting = []) ∧
      (let given := State.grants n
        { s with feeders := s.feeders.set n { s.feeder n with allowance := v, pendingLow := none } }
      t.feeders = given.feeders ∧ t.fans = given.fans) ∧
      ∀ m, m ≠ n → (t.feeder m).class1 = (s.feeder m).class1 ∧ (t.feeder m).class0 = (s.feeder m).class0 := by
  have hset := Feeder.setAllowance_reached hv
  have hgrants : s.feederSet n v =
      State.grants n { s with feeders := s.feeders.set n { s.feeder n with allowance := v, pendingLow := none } } := by
    rw [State.feederSet, State.modFeeder_eq_set hn, hset]
  obtain ⟨hkeeps, hends⟩ := State.grants_feeder (k := n) (v := v) (s := s.modFeeder n (Feeder.setAllowance v))
    (by rw [(State.modFeeder_reacts n _ s).feeders]; exact hn)
    (by rw [State.feeder_modFeeder hn, hset]; exact ⟨rfl, rfl, hv⟩)
  refine ⟨?_, ?_, hgrants ▸ ⟨ht.feeders, ht.fans⟩, fun m hm => ?_⟩
  · rw [ht.feeder_eq n]; exact hkeeps
  · rw [ht.feeder_eq n]; exact hends
  · rw [ht.feeder_eq m]; exact (State.feederSet_grantsOn n v s).others m hm

/-! ## The step of SET FEEDER -/

section
variable {s : State} {slot : Nat} (h : s.posted slot)
include h

/-- Setting the allowance leaves the order that asks for it in the active set, so that its completion takes effect. -/
theorem State.feederSet_active (n v : Nat) :
    ((s.takeHead slot).feederSet n v).activeOrder slot = (s.takeHead slot).activeOrder slot := by
  obtain ⟨_, _, _, hinactive, _⟩ := h
  have hactive := State.takeHead_active slot s hinactive
  rw [hactive]
  exact (State.feederSet_grantsOn n v _).quick slot _ hactive rfl

theorem State.feederSet_complete_done (n v : Nat) (o : OrderOutcome) (clamped : Bool) (count : Nat) (body : List Byte) :
    slotDoneWith s (State.refresh s (((s.takeHead slot).feederSet n v).complete slot o clamped count body)) slot o clamped
      count body := by
  have hreacts := State.feederSet_reacts n v (s.takeHead slot)
  have hdone := State.complete_done_of_reacts h hreacts (State.feederSet_active h n v) o clamped count body
  obtain ⟨_, hlt, _, _, hwf⟩ := h
  exact hdone.refresh s hlt (State.complete_wf _ _ _ _ _ _ (hreacts.wf (State.takeHead_wf slot s hwf)))

/-- An allowance that is kept pending is all that SET FEEDER changes beside its slot and the image. -/
theorem State.feederSet_complete_below {n v : Nat} (hn : n < s.feeders.length) (hv : v < (s.feeder n).energizing.length)
    (o : OrderOutcome) (clamped : Bool) (count : Nat) (body : List Byte) :
    let t := State.refresh s (((s.takeHead slot).feederSet n v).complete slot o clamped count body)
    memoryKeptBeside s t slot ∧
      t = { s with
        mem := t.mem, imageCounts := t.imageCounts, intake := s.intake.tail, attn := s.attn ||| 1,
        feeders := s.feeders.set n { s.feeder n with pendingLow := some v } } := by
  intro t
  obtain ⟨es, heq⟩ := State.feederSet_below (s := s.takeHead slot) hn hv
  have ht : t = State.refresh s { (s.takeHead slot).complete slot o clamped count body with
      feeders := s.feeders.set n { s.feeder n with pendingLow := some v }, events := es } := by
    rw [← State.complete_withFeeders]
    exact congrArg (fun u => State.refresh s (State.complete slot o clamped count body u)) heq
  have hframe := State.takeHead_complete_frame h o clamped count body
  obtain ⟨hwf, hkept⟩ := State.takeHead_complete_mem h o clamped count body
  refine ⟨fun a hslot himage => ?_, ?_⟩
  · rw [ht]
    refine ((State.refresh_mem s _ ?_).2 a himage).trans (hkept a hslot)
    exact hwf
  · rw [ht, State.refresh_frame, hframe]

end

/-- Settles O23: the order is taken, the allowance set and the grants made, and the order completed; the grants leave it in
the active set, and what they do to the fans and the feeders does not depend on its having been taken. -/
theorem setFeederAppliesOrDefers : Obligations.SetFeederAppliesOrDefers := by
  intro s slot hready hshaped
  have ⟨hposted, _⟩ := hready
  obtain ⟨_, _, _, hfeeders, _⟩ := hshaped
  rcases Nat.lt_or_ge (u8 (s.orderBody slot) 0) 4 with hn | hn
  · refine ⟨_, exec_setFeeder_sets hready hn, ?_⟩
    intro n carried v k k'
    let u := (s.takeHead slot).feederSet n v
    have hlen : n < s.feeders.length := by omega
    have halike (o : OrderOutcome) (clamped : Bool) (count : Nat) (body : List Byte) :
        FansAlike u (State.refresh s (u.complete slot o clamped count body)) :=
      (FansAlike.complete ..).trans (FansAlike.refresh ..)
    have hfeeder : k' = u.feeder n := (halike ..).feeder_eq n
    have hreacts : Reacts (s.takeHead slot) u := State.feederSet_reacts ..
    refine ⟨fun h => absurd hn (Nat.not_lt.mpr h), fun _ => ⟨?_, ?_, fun hv => ?_, fun hv => ?_⟩⟩
    · rw [hfeeder]
      exact State.feederSet_complete_done hposted ..
    · exact State.refresh_takeHead_reactionFrame hposted (hreacts.trans (State.complete_reacts ..))
    · exact State.feederSet_complete_below hposted hlen hv ..
    · obtain ⟨⟨hallow, hpend, hle⟩, hends, hgiven, hothers⟩ := State.feederSet_reached hlen hv
        (((FansAlike.takeHead slot s).feederSet n v).trans (halike ..))
      exact ⟨hallow, hpend, hle, hends.imp_right List.append_eq_nil_iff.mp, hgiven, hothers⟩
  · refine ⟨_, exec_setFeeder_noUnit hready hn, fun _ => ?_, fun h => absurd hn (Nat.not_le.mpr h)⟩
    exact State.refresh_takeHead_complete_refused hposted .noSuchUnit 0

end Sys2Proof.Machine
end
